-- ==== Sys2Proof/Word.lean ====
section
/-! DEFINITION. The word types of the register window. All values are unsigned and bit 0 is the least significant bit
(00_scope.md R7). -/

namespace Sys2Proof

/-- A host register, a command word or a host access's data: `REG_W` = 32 bits (00_scope.md R6). -/
abbrev Word := BitVec 32

/-- A profile field: `PROF_W` = 16 bits (00_scope.md R6). -/
abbrev Field := BitVec 16

/-- One byte lane of the host port (20_memory.md R64). -/
abbrev Byte := BitVec 8

end Sys2Proof
end

