-- ==== Sys2Proof/Syntax.lean ====
section
/-! DEFINITION. The command set: one constructor per row of spec/opcode_table.json (30_encoding.md R82, R83). -/

namespace Sys2Proof

/-- A command. One-bit fields are `Bool` (true is 1). `p` (PAGE), `n` and `k` (N) are wider than their legal ranges,
so that the illegal values can be written and are checked at acceptance (30_encoding.md R81, R87). -/
inductive Instr where
  /-- Open the antenna session (42_sequencer.md R151). -/
  | start
  /-- Close the antenna session (42_sequencer.md R152). -/
  | stop
  /-- Emit one bit of value `v` (40_pulse_gap.md R107). -/
  | bit (v : Bool)
  /-- Emit a start gap (40_pulse_gap.md R108). -/
  | sgap
  /-- Emit the opcode of page `p` (40_pulse_gap.md R109). -/
  | opc (p : BitVec 2)
  /-- Emit a reset frame (40_pulse_gap.md R110). -/
  | rstf
  /-- Write one tag block: page `p`, block address `n`, lock bit `l`, password enable `e` (41_block_write.md R135). -/
  | wblk (p : BitVec 2) (n : BitVec 4) (l e : Bool)
  /-- Write the first `k` entries of the block buffer (42_sequencer.md R153). -/
  | wbatch (k : BitVec 4)
  deriving DecidableEq, Repr

end Sys2Proof
end

