-- ==== Sys2Proof/Decode.lean ====
section
/-! DEFINITION. The decoder and the encoder of command words (30_encoding.md R80 to R88). -/

namespace Sys2Proof

/-- The byte on lane `j` of a host word: lane 0, at the lowest address, is bits 7:0 (20_memory.md R64). -/
def laneByte (w : Word) (j : Fin 4) : Byte := w.extractLsb' (8 * j.val) 8

/-- The host word whose lanes, lowest address first, are the four bytes (20_memory.md R64). -/
def wordOfLanes (b0 b1 b2 b3 : Byte) : Word := b3 ++ b2 ++ b1 ++ b0

/-- Why a word is Illegal: the two grounds of 30_encoding.md R86. Both raise the one fault ILLEGAL_CMD. -/
inductive Illegal where
  /-- OP is 0x0 or 0x9 to 0xF. -/
  | opcode
  /-- OP names a command, and a reserved bit or a field that it does not use is nonzero. -/
  | field
  deriving DecidableEq, Repr

/-- A row of the encoding table of 30_encoding.md R83, with the command it builds from a matching word. -/
structure Row where
  mask : Word
  value : Word
  build : Word → Instr

/-- `(w AND r.mask) = r.match` (30_encoding.md R84). -/
def Row.hits (r : Row) (w : Word) : Bool := w &&& r.mask == r.value

/-- PAGE, bits 5:4 (30_encoding.md R81). -/
def pageField (w : Word) : BitVec 2 := w.extractLsb' 4 2

/-- LOCK, bit 6 (30_encoding.md R81). -/
def lockField (w : Word) : Bool := w.getLsbD 6

/-- PWDEN, bit 7 (30_encoding.md R81). -/
def pwdenField (w : Word) : Bool := w.getLsbD 7

/-- N, bits 11:8 (30_encoding.md R81). -/
def nField (w : Word) : BitVec 4 := w.extractLsb' 8 4

/-- V, bit 12 (30_encoding.md R81). -/
def vField (w : Word) : Bool := w.getLsbD 12

/-- OP, bits 3:0 (30_encoding.md R81). -/
def opField (w : Word) : BitVec 4 := w.extractLsb' 0 4

/-- The rows of 30_encoding.md R83, in its order. -/
def rows : List Row :=
  [ ⟨0xFFFFFFFF#32, 0x00000001#32, fun _ => .start⟩,
    ⟨0xFFFFFFFF#32, 0x00000002#32, fun _ => .stop⟩,
    ⟨0xFFFFEFFF#32, 0x00000003#32, fun w => .bit (vField w)⟩,
    ⟨0xFFFFFFFF#32, 0x00000004#32, fun _ => .sgap⟩,
    ⟨0xFFFFFFCF#32, 0x00000005#32, fun w => .opc (pageField w)⟩,
    ⟨0xFFFFFFFF#32, 0x00000006#32, fun _ => .rstf⟩,
    ⟨0xFFFFF00F#32, 0x00000007#32, fun w => .wblk (pageField w) (nField w) (lockField w) (pwdenField w)⟩,
    ⟨0xFFFFF0FF#32, 0x00000008#32, fun w => .wbatch (nField w)⟩ ]

/-- OP names one of the eight commands (30_encoding.md R82). -/
def opNamed (op : BitVec 4) : Bool := 1 ≤ op.toNat && op.toNat ≤ 8

/-- Decoding, a total function of the word: the row that matches, or Illegal (30_encoding.md R84, R86). -/
def decode (w : Word) : Except Illegal Instr :=
  match rows.find? (fun r => r.hits w) with
  | some r => .ok (r.build w)
  | none => .error (if opNamed (opField w) then .field else .opcode)

/-- The OP value of a command (30_encoding.md R82). -/
def Instr.opcode : Instr → BitVec 4
  | .start => 0x1#4
  | .stop => 0x2#4
  | .bit _ => 0x3#4
  | .sgap => 0x4#4
  | .opc _ => 0x5#4
  | .rstf => 0x6#4
  | .wblk _ _ _ _ => 0x7#4
  | .wbatch _ => 0x8#4

/-- A command word from its fields, bit 31 first (30_encoding.md R81): the reserved bits are 0. -/
def packFields (v : Bool) (n : BitVec 4) (pwden lock : Bool) (page : BitVec 2) (op : BitVec 4) : Word :=
  0#19 ++ BitVec.ofBool v ++ n ++ BitVec.ofBool pwden ++ BitVec.ofBool lock ++ page ++ op

/-- The word of a command, with every field it does not use 0 (30_encoding.md R83, R88). -/
def encode (i : Instr) : Word :=
  match i with
  | .start => packFields false 0#4 false false 0#2 i.opcode
  | .stop => packFields false 0#4 false false 0#2 i.opcode
  | .bit v => packFields v 0#4 false false 0#2 i.opcode
  | .sgap => packFields false 0#4 false false 0#2 i.opcode
  | .opc p => packFields false 0#4 false false p i.opcode
  | .rstf => packFields false 0#4 false false 0#2 i.opcode
  | .wblk p n l e => packFields false n e l p i.opcode
  | .wbatch k => packFields false k false false 0#2 i.opcode

/-- The command read from an instruction whose bits are `w`, in the opcode table's numbering. Every row has 32 bits, one
word written whole to CMD (30_encoding.md R80); bits from `nbits` up are 0. -/
def decodeTableWord (nbits w : Nat) : Option Instr :=
  if nbits ≤ 32 then (decode (BitVec.ofNat 32 (w % 2 ^ nbits))).toOption else none

end Sys2Proof
end

