-- ==== Sys2Proof/Config.lean ====
section
/-! DEFINITION. What is fixed for the machine: the parameters of 00_scope.md R6, and the free values. An opaque constant
has no body, so no proof can learn its value. -/

namespace Sys2Proof

/-- `CARRIER_HZ` (00_scope.md R6). -/
def Config.carrierHz : Nat := 125000

/-- `CARRIER_DUTY`, in percent (00_scope.md R6). -/
def Config.carrierDuty : Nat := 50

/-- `TICK_US`: one tick of the time base, in microseconds (00_scope.md R6). -/
def Config.tickUs : Nat := 1

/-- `UNIT_US`: one profile unit, in microseconds (00_scope.md R6). -/
def Config.unitUs : Nat := 8

/-- `MAX_BLOCKS`: block buffer entries, and the largest WBATCH count (00_scope.md R6). -/
def Config.maxBlocks : Nat := 8

/-- The register window's size in bytes (10_state.md R21). -/
def Config.windowBytes : Nat := 256

/-- `BASE`, OPEN: the host address of the register window (00_scope.md R6, 20_memory.md R70). Log entry 7. -/
opaque Config.base : Nat

/-- `ACCEPT_LAT`, OPEN: the ticks from an accepting write to the first segment (00_scope.md R6, 42_sequencer.md R161).
Log entry 5. -/
opaque Config.acceptLat : Nat

/-- The free values of ACT's fields while no session is open (10_state.md R43; 93_implementation_defined.md U10).
Each number gives a fresh value. Log entry 2. -/
opaque Config.freeField : Nat → Field

end Sys2Proof
end

