-- ==== Sys2Proof/Machine/State.lean ====
section
/-! DEFINITION. The state of the block as plain data (10_state.md), the traces a model records of a run
(42_sequencer.md R165), and the reasons a step can stop. -/

namespace Sys2Proof.Machine

/-- The envelope level of a segment: carrier on, or carrier stopped (40_pulse_gap.md R100). -/
inductive Level where
  | cw
  | gap
  deriving DecidableEq, Repr

/-- The phase of a segment (10_state.md R29, codes 1 to 13; code 0, NONE, is shown when no segment is current). -/
inductive Phase where
  | preWait
  | sof
  | opcode
  | password
  | lock
  | data
  | addr
  | program
  | postWait
  | reset
  | primBit
  | primSgap
  | finalReset
  deriving DecidableEq, Repr

/-- The tag (PHASE, BLKIDX, BITIDX) of a segment (40_pulse_gap.md R102), in the widths of POS (10_state.md R33). -/
structure Tag where
  phase : Phase
  blkIdx : BitVec 4
  bitIdx : BitVec 6
  deriving DecidableEq, Repr

/-- One output segment: the envelope held at `level` for `d` microseconds (00_scope.md R8). -/
structure Segment where
  level : Level
  d : Nat
  tag : Tag
  deriving DecidableEq, Repr

/-- The output alphabet W, P, S, B0, B1 (40_pulse_gap.md R100). -/
inductive Symbol where
  | w
  | p
  | s
  | b0
  | b1
  deriving DecidableEq, Repr

/-- One item of the symbol trace: a symbol and the tag of its segments (40_pulse_gap.md R102, R103). -/
abbrev Emission := Symbol × Tag

/-- FAULT.CAUSE (60_exceptions.md R180). -/
inductive Cause where
  | noFault
  | illegalCmd
  | noSession
  | sessionActive
  | badPage
  | badBlock
  | badProfile
  deriving DecidableEq, Repr

/-- The six timing fields of a profile, in profile units (10_state.md R36, R43). -/
structure Profile where
  waitTime : Field
  startGap : Field
  writeGap : Field
  data0 : Field
  data1 : Field
  program : Field
  deriving DecidableEq, Repr

/-- CUR: the segment being emitted, and CNT, the microseconds of it not yet emitted (10_state.md R44). -/
structure Current where
  seg : Segment
  cnt : Nat
  deriving DecidableEq, Repr

/-- An item of the event trace (42_sequencer.md R165). -/
inductive Event where
  | on
  | off
  /-- `Begin(OP)`. -/
  | began (op : BitVec 4)
  | seg (level : Level) (d : Nat) (tag : Tag)
  /-- `End`. -/
  | ended
  | fault (cause : Cause) (word : Word)
  | reset
  deriving DecidableEq, Repr

/-- A host access at byte offset `off` from BASE, of `size` bytes (20_memory.md R62; 30_encoding.md R89). -/
inductive Access where
  | read (off size : Nat)
  | write (off size : Nat) (value : Word)
  deriving DecidableEq, Repr

/-- A move of one of the agents (00_scope.md R5). `pending` orders them (log entry 1). -/
inductive Move where
  /-- The host presents one access. -/
  | access (a : Access)
  /-- The host's polling loop `wait_idle` (30_encoding.md R90; log entry 9). -/
  | waitIdle
  /-- One `tick_1us` of the time base (42_sequencer.md R161). -/
  | tick
  /-- One engine step, a whole segment (42_sequencer.md R160). -/
  | engine
  /-- `rst_n` goes low and is released (70_reset_and_hazards.md R210; log entry 8). -/
  | reset
  deriving DecidableEq, Repr

/-- One of the six profile registers or ACT fields (10_state.md R36, R43). -/
inductive ProfileField where
  | waitTime
  | startGap
  | writeGap
  | data0
  | data1
  | program
  deriving DecidableEq, Repr

/-- What stands at a word slot of the register window (10_state.md R21). -/
inductive Reg where
  | cmd
  | status
  | fault
  | faultCmd
  | pos
  | data
  | password
  | profile (f : ProfileField)
  | blk (i : Fin 8)
  | reserved
  deriving DecidableEq, Repr

/-- The control states of 42_sequencer.md R150. -/
inductive Control where
  | idle
  | active
  | writing
  | halted
  deriving DecidableEq, Repr

/-- What drives `carrier_out` (10_state.md R45, 42_sequencer.md R163): a square wave, or nothing. The wave's phase is
unspecified and is not represented (log entry 6). -/
inductive CarrierOut where
  | square (hz dutyPercent : Nat)
  | floating
  deriving DecidableEq, Repr

/-- A piece of the antenna envelope: carrier on or off for exactly `d` microseconds, or, where not `exact`, for at least
`d` (40_pulse_gap.md R105, 42_sequencer.md R164, R165). -/
structure Piece where
  carrier : Bool
  d : Nat
  exact : Bool
  deriving DecidableEq, Repr

/-- The state of the block, with the records of the run and the model's own fields. -/
structure State where
  /-- STATUS.SESSION (10_state.md R23). -/
  session : Bool
  /-- STATUS.HALT (10_state.md R27). -/
  halt : Bool
  /-- STATUS.OVR (10_state.md R28). -/
  ovr : Bool
  /-- FAULT.CAUSE (10_state.md R31). -/
  cause : Cause
  /-- FAULT_CMD (10_state.md R32). -/
  faultCmd : Word
  /-- DATA (10_state.md R34). -/
  data : Word
  /-- PASSWORD (10_state.md R35). -/
  password : Word
  /-- P_WAIT_TIME to P_PROGRAM (10_state.md R36). -/
  profile : Profile
  /-- BLK0 to BLK7 (10_state.md R38). -/
  blk : Vector Word 8
  /-- ACT (10_state.md R43). -/
  act : Profile
  /-- CUR with CNT (10_state.md R44). -/
  cur : Option Current
  /-- Q (10_state.md R44). -/
  queue : List Segment
  /-- The ticks of ACCEPT_LAT that have still to pass (42_sequencer.md R161; log entry 5). -/
  latency : Nat
  /-- The event trace, oldest first (42_sequencer.md R165). -/
  events : List Event
  /-- The symbol trace, oldest first (42_sequencer.md R165). -/
  symbols : List Emission
  /-- MODEL'S OWN: the agents' moves still to come, next first (log entry 1). -/
  pending : List Move
  /-- MODEL'S OWN: the words returned on the host port's read data, oldest first (log entry 1). -/
  reads : List Word
  /-- MODEL'S OWN: how many free values have been drawn (log entry 2). -/
  freeCount : Nat
  deriving DecidableEq, Repr

/-- Every field of a profile is 0 (10_state.md R47 for the profile registers). -/
def Profile.zero : Profile := ⟨0#16, 0#16, 0#16, 0#16, 0#16, 0#16⟩

/-- The machine right after reset (10_state.md R47). ACT, which the spec leaves unspecified, is zero here:
DESIGN CHOICE, unsafe, log entry 3. `latency` and `freeCount`: DESIGN CHOICE, log entries 5 and 2. -/
def State.reset : State where
  session := false
  halt := false
  ovr := false
  cause := .noFault
  faultCmd := 0#32
  data := 0#32
  password := 0#32
  profile := Profile.zero
  blk := Vector.replicate 8 0#32
  act := Profile.zero
  cur := none
  queue := []
  latency := 0
  events := []
  symbols := []
  pending := []
  reads := []
  freeCount := 0

/-- A stop of the model that is no fault of the block. (A fault of the block, 60_exceptions.md R185, is a next state.) -/
inductive Fault where
  /-- Raised by the host port for an access at an offset past the 256-byte window (20_memory.md R60): the host's address
  decoder does not select the block, so no move of the block exists. Safe. Log entry 7. -/
  | outsideWindow (off : Nat)
  deriving DecidableEq, Repr

/-- A move that the model refuses. -/
inductive Refusal where
  /-- Raised by an arm of `exec` whose instruction has no meaning yet. Safe. No arm raises it. -/
  | notModelled (mnemonic : String)
  /-- Raised by the host port for an access that is not 32 bits wide; 20_memory.md R62: "A model refuses such an access".
  Safe. Log entry 7. -/
  | accessSize (size : Nat)
  /-- Raised by the host port for an access whose offset bits 1:0 are not 0 (20_memory.md R63). Safe. Log entry 7. -/
  | misaligned (off : Nat)
  deriving DecidableEq, Repr

end Sys2Proof.Machine
end

