-- ==== Sys2Proof/Machine/Flags.lean ====
section
/-! DEFINITION. What is computed from the state at every instant: the STATUS bits and words, POS, FAULT, the output ports
and the control state (10_state.md R20 (c), R22 to R33, R45; 42_sequencer.md R150). -/

namespace Sys2Proof.Machine

/-- STATUS.BUSY: the engine holds a current segment (10_state.md R24, R44). -/
def State.busy (s : State) : Bool := s.cur.isSome

/-- Port `excl` and STATUS.EXCL: equal to BUSY (10_state.md R25, R45). -/
def State.excl (s : State) : Bool := s.busy

/-- Port `cw_en` and STATUS.CW: in a session, the level of the current segment, or on when there is none
(10_state.md R26, R45). -/
def State.cwEn (s : State) : Bool :=
  s.session &&
    match s.cur with
    | none => true
    | some c => c.seg.level == .cw

/-- Port `carrier_out` (10_state.md R45, 42_sequencer.md R163). -/
def State.carrierOut (s : State) : CarrierOut :=
  if s.cwEn then .square Config.carrierHz Config.carrierDuty else .floating

/-- Port `pin_bind` (10_state.md R45). -/
def State.pinBind (s : State) : Bool := s.session

/-- Port `pull_en`, always 0 (10_state.md R45). -/
def State.pullEn (_ : State) : Bool := false

/-- Port `own` (10_state.md R45). -/
def State.own (s : State) : Bool := s.session

/-- The phase codes of 10_state.md R29. -/
def Phase.code : Phase → BitVec 4
  | .preWait => 1#4
  | .sof => 2#4
  | .opcode => 3#4
  | .password => 4#4
  | .lock => 5#4
  | .data => 6#4
  | .addr => 7#4
  | .program => 8#4
  | .postWait => 9#4
  | .reset => 10#4
  | .primBit => 11#4
  | .primSgap => 12#4
  | .finalReset => 13#4

/-- STATUS.PHASE: the current segment's phase code, 0 (NONE) when not busy (10_state.md R29). -/
def State.phaseCode (s : State) : BitVec 4 :=
  match s.cur with
  | none => 0#4
  | some c => c.seg.tag.phase.code

/-- The STATUS word, bit 31 first (10_state.md R23 to R30). -/
def State.status (s : State) : Word :=
  0#20 ++ s.phaseCode ++ 0#2 ++ BitVec.ofBool s.ovr ++ BitVec.ofBool s.halt ++ BitVec.ofBool s.cwEn ++
    BitVec.ofBool s.excl ++ BitVec.ofBool s.busy ++ BitVec.ofBool s.session

/-- The POS word: BLKIDX and BITIDX of the current segment, 0 when not busy (10_state.md R33). -/
def State.pos (s : State) : Word :=
  match s.cur with
  | none => 0#32
  | some c => 0#20 ++ c.seg.tag.blkIdx ++ 0#2 ++ c.seg.tag.bitIdx

/-- The cause codes of 60_exceptions.md R180. -/
def Cause.code : Cause → BitVec 4
  | .noFault => 0#4
  | .illegalCmd => 1#4
  | .noSession => 2#4
  | .sessionActive => 3#4
  | .badPage => 4#4
  | .badBlock => 5#4
  | .badProfile => 6#4

/-- The FAULT word (10_state.md R31). -/
def State.faultWord (s : State) : Word := 0#28 ++ s.cause.code

/-- The control state of 42_sequencer.md R150; `none` for a combination its table does not list. -/
def State.control (s : State) : Option Control :=
  match s.session, s.busy, s.halt with
  | false, false, false => some .idle
  | true, false, false => some .active
  | true, true, false => some .writing
  | false, false, true => some .halted
  | _, _, _ => none

end Sys2Proof.Machine
end

