-- ==== Sys2Proof/Machine/Operands.lean ====
section
/-! DEFINITION. Operand forms: register slots, profile fields, bit order, and the expansion of symbols into segments
(10_state.md R21, R36; 40_pulse_gap.md R100; 41_block_write.md R132 to R134). -/

namespace Sys2Proof.Machine

/-- The word slot an access selects: byte offset bits 7:2 (20_memory.md R61). -/
def slotOf (off : BitVec 8) : BitVec 6 := off.extractLsb' 2 6

/-- The register at a word slot (10_state.md R21). -/
def regAt (slot : BitVec 6) : Reg :=
  match slot.toNat with
  | 0 => .cmd
  | 1 => .status
  | 2 => .fault
  | 3 => .faultCmd
  | 4 => .pos
  | 5 => .data
  | 6 => .password
  | 8 => .profile .waitTime
  | 9 => .profile .startGap
  | 10 => .profile .writeGap
  | 11 => .profile .data0
  | 12 => .profile .data1
  | 13 => .profile .program
  | 16 => .blk 0
  | 17 => .blk 1
  | 18 => .blk 2
  | 19 => .blk 3
  | 20 => .blk 4
  | 21 => .blk 5
  | 22 => .blk 6
  | 23 => .blk 7
  | _ => .reserved

/-- A field of a profile (10_state.md R36). -/
def Profile.get (p : Profile) : ProfileField → Field
  | .waitTime => p.waitTime
  | .startGap => p.startGap
  | .writeGap => p.writeGap
  | .data0 => p.data0
  | .data1 => p.data1
  | .program => p.program

/-- A profile with one field replaced (10_state.md R36). -/
def Profile.set (p : Profile) (f : ProfileField) (v : Field) : Profile :=
  match f with
  | .waitTime => { p with waitTime := v }
  | .startGap => { p with startGap := v }
  | .writeGap => { p with writeGap := v }
  | .data0 => { p with data0 := v }
  | .data1 => { p with data1 := v }
  | .program => { p with program := v }

/-- No field is 0, the check START makes (42_sequencer.md R151). -/
def Profile.allNonzero (p : Profile) : Bool :=
  p.waitTime != 0#16 && p.startGap != 0#16 && p.writeGap != 0#16 &&
    p.data0 != 0#16 && p.data1 != 0#16 && p.program != 0#16

/-- `dur(f)`, the microseconds of a profile field (00_scope.md R8, 10_state.md R36). -/
def dur (f : Field) : Nat := Config.unitUs * f.toNat

/-- `B(v)` (40_pulse_gap.md R100). -/
def Symbol.ofBit (v : Bool) : Symbol := if v then .b1 else .b0

/-- The levels and durations of a symbol under a profile, in order: of a bit, the hold first and then the gap
(40_pulse_gap.md R100, R101). -/
def Symbol.parts (a : Profile) : Symbol → List (Level × Nat)
  | .w => [(.cw, dur a.waitTime)]
  | .p => [(.cw, dur a.program)]
  | .s => [(.gap, dur a.startGap)]
  | .b0 => [(.cw, dur a.data0), (.gap, dur a.writeGap)]
  | .b1 => [(.cw, dur a.data1), (.gap, dur a.writeGap)]

/-- `emit(sym, tag)`: the symbol's segments, each with the tag (40_pulse_gap.md R102, R103). -/
def segmentsOf (a : Profile) (e : Emission) : List Segment :=
  (e.1.parts a).map fun part => ⟨part.1, part.2, e.2⟩

/-- The segment list of an expansion (40_pulse_gap.md R103). -/
def expand (a : Profile) (es : List Emission) : List Segment :=
  es.flatMap (segmentsOf a)

/-- The bits of a word as emitted, most significant bit first: the j-th is `v[n - 1 - j]`, tagged with j
(41_block_write.md R132 to R134). -/
def bitRun {n : Nat} (ph : Phase) (b : BitVec 4) (v : BitVec n) : List Emission :=
  (List.range n).map fun j => (Symbol.ofBit (v.getLsbD (n - 1 - j)), ⟨ph, b, BitVec.ofNat 6 j⟩)

/-- The opcode of a page: bit 1, then the page (40_pulse_gap.md R109). -/
def opcodeFrame (page : Bool) (b : BitVec 4) : List Emission :=
  [(.b1, ⟨.opcode, b, 0#6⟩), (Symbol.ofBit page, ⟨.opcode, b, 1#6⟩)]

/-- The reset frame: start gap, bit 1, bit 0 (40_pulse_gap.md R110). -/
def resetFrame (ph : Phase) (b : BitVec 4) : List Emission :=
  [(.s, ⟨ph, b, 0#6⟩), (.b1, ⟨ph, b, 1#6⟩), (.b0, ⟨ph, b, 2#6⟩)]

/-- The microseconds of a segment list (70_reset_and_hazards.md R220). -/
def totalDuration (segs : List Segment) : Nat := (segs.map (·.d)).sum

end Sys2Proof.Machine
end

