-- ==== Sys2Proof/WellFormed.lean ====
section
/-! DEFINITION. Legal operand values (30_encoding.md R81, R87). An instruction that fails a check still decodes and runs:
its acceptance raises BAD_PAGE or BAD_BLOCK (60_exceptions.md R181). -/

namespace Sys2Proof

/-- A page is 0 or 1 (30_encoding.md R81). -/
def pageLegal (p : BitVec 2) : Bool := p.toNat ≤ 1

/-- A block address is 0 to 7 (30_encoding.md R81). -/
def addressLegal (n : BitVec 4) : Bool := n.toNat ≤ 7

/-- A block count is 0 to `MAX_BLOCKS` (30_encoding.md R81). -/
def countLegal (k : BitVec 4) : Bool := k.toNat ≤ Config.maxBlocks

/-- Every operand has a legal value. -/
def Instr.wellFormed : Instr → Bool
  | .start => true
  | .stop => true
  | .bit _ => true
  | .sgap => true
  | .opc p => pageLegal p
  | .rstf => true
  | .wblk p n _ _ => pageLegal p && addressLegal n
  | .wbatch k => countLegal k

end Sys2Proof
end

