-- ==== Sys2Proof/Machine/Ops.lean ====
section
/-! DEFINITION. The named operations on the state: registers, the gates of a host write, closing a session, taking a fault,
accepting an emission, reset. -/

namespace Sys2Proof.Machine

/-- What a step of this machine answers. -/
abbrev Result := Host.Outcome State Fault Refusal

/-! ### Named updates -/

/-- Append to the event trace (42_sequencer.md R165). -/
def State.addEvent (s : State) (e : Event) : State := { s with events := s.events ++ [e] }

/-- Append to the symbol trace (40_pulse_gap.md R103). -/
def State.addSymbols (s : State) (es : List Emission) : State := { s with symbols := s.symbols ++ es }

/-- Return a word on the host port's read data (10_state.md R46). -/
def State.addRead (s : State) (v : Word) : State := { s with reads := s.reads ++ [v] }

/-- Replace the moves still to come (log entry 1). -/
def State.setPending (s : State) (ms : List Move) : State := { s with pending := ms }

/-- Set STATUS.OVR (10_state.md R28). -/
def State.setOvr (s : State) : State := { s with ovr := true }

/-- Set the engine on a segment list: CUR the head with its whole duration to go, Q the tail
(42_sequencer.md R155, R160). -/
def State.load (s : State) (segs : List Segment) : State :=
  { s with cur := segs.head?.map fun g => ⟨g, g.d⟩, queue := segs.tail }

/-- ACT becomes unspecified: six fresh free values (10_state.md R43; log entry 2). -/
def State.forgetAct (s : State) : State :=
  { s with
    act := ⟨Config.freeField s.freeCount, Config.freeField (s.freeCount + 1), Config.freeField (s.freeCount + 2),
      Config.freeField (s.freeCount + 3), Config.freeField (s.freeCount + 4), Config.freeField (s.freeCount + 5)⟩
    freeCount := s.freeCount + 6 }

/-! ### Registers -/

/-- The value a host read returns (20_memory.md R65; 10_state.md R22, R30 to R39). -/
def State.readReg (s : State) : Reg → Word
  | .cmd => 0#32
  | .status => s.status
  | .fault => s.faultWord
  | .faultCmd => s.faultCmd
  | .pos => s.pos
  | .data => s.data
  | .password => s.password
  | .profile f => (s.profile.get f).setWidth 32
  | .blk i => s.blk[i]
  | .reserved => 0#32

/-- What a host write stores in a register that is not CMD: read-only and reserved slots store nothing
(20_memory.md R66; 10_state.md R36, R39). -/
def State.storeReg (s : State) (r : Reg) (w : Word) : State :=
  match r with
  | .data => { s with data := w }
  | .password => { s with password := w }
  | .profile f => { s with profile := s.profile.set f (w.setWidth 16) }
  | .blk i => { s with blk := s.blk.set i w }
  | .cmd => s
  | .status => s
  | .fault => s
  | .faultCmd => s
  | .pos => s
  | .reserved => s

/-- The gates before the effect of any host write: HALT first, then BUSY (20_memory.md R66, 60_exceptions.md R186). -/
def State.gated (s : State) (effect : State → State) : State :=
  if s.halt then s else if s.busy then s.setOvr else effect s

/-! ### Sessions and faults -/

/-- START's effect: latch the profile, own the antenna, carrier on (42_sequencer.md R151). -/
def State.openSession (s : State) : State :=
  { s with act := s.profile, session := true }.addEvent .on

/-- STOP's effect, and the last part of fault entry: with a session, carrier off, session closed, ACT unspecified;
without one, nothing (42_sequencer.md R152, 60_exceptions.md R185). -/
def State.closeSession (s : State) : State :=
  if s.session then ({ s with session := false }.forgetAct).addEvent .off else s

/-- `raise Fault(cause, w)`, the sticky halt (60_exceptions.md R185). -/
def State.raiseFault (s : State) (c : Cause) (w : Word) : State :=
  ({ s with cause := c, faultCmd := w, halt := true }.addEvent (.fault c w)).closeSession

/-! ### Acceptance -/

/-- The acceptance of an emission command that passed its checks (42_sequencer.md R155): CUR and Q from the whole
expansion under ACT, the trace item Begin(OP), and the symbols on the symbol trace. -/
def State.beginEmission (s : State) (op : BitVec 4) (es : List Emission) : State :=
  (({ s with latency := Config.acceptLat }.load (expand s.act es)).addEvent (.began op)).addSymbols es

/-- The page check of 60_exceptions.md R184. -/
def checkPage (p : BitVec 2) : Option Cause := if pageLegal p then none else some .badPage

/-- The block address check of 60_exceptions.md R184. -/
def checkAddress (n : BitVec 4) : Option Cause := if addressLegal n then none else some .badBlock

/-- The block count check of 60_exceptions.md R184. -/
def checkCount (k : BitVec 4) : Option Cause := if countLegal k then none else some .badBlock

/-- The procedure of 60_exceptions.md R184 for an emission command: session first, then the operand check's result,
then acceptance. FAULT_CMD is the command's word. -/
def State.acceptEmission (s : State) (i : Instr) (bad : Option Cause) (es : List Emission) : State :=
  if s.session then
    match bad with
    | some c => s.raiseFault c (encode i)
    | none => s.beginEmission i.opcode es
  else s.raiseFault .noSession (encode i)

/-- A CMD write of an emission command (20_memory.md R66, 60_exceptions.md R184). -/
def submitEmission (i : Instr) (bad : Option Cause) (es : List Emission) (s : State) : Result :=
  .next (s.gated fun s => s.acceptEmission i bad es)

/-! ### Reset -/

/-- The input `rst_n` (70_reset_and_hazards.md R210): every state element takes its 10_state.md R47 value, ACT becomes
unspecified, and the event trace gets Off if a session was open, then Reset. The traces and the model's own fields go on. -/
def State.resetBlock (s : State) : State :=
  ({ State.reset with
      events := s.events ++ (if s.session then [Event.off] else [])
      symbols := s.symbols
      pending := s.pending
      reads := s.reads
      freeCount := s.freeCount }.forgetAct).addEvent .reset

end Sys2Proof.Machine
end

