-- ==== Sys2Proof/Machine/PulseGap.lean ====
section
/-! DEFINITION. BIT, SGAP, OPC and RSTF (40_pulse_gap.md). -/

namespace Sys2Proof.Machine

/-- BIT v (40_pulse_gap.md R107). -/
def execBit (v : Bool) (s : State) : Result :=
  submitEmission (.bit v) none [(Symbol.ofBit v, ⟨.primBit, 0#4, 0#6⟩)] s

/-- SGAP (40_pulse_gap.md R108). -/
def execSgap (s : State) : Result :=
  submitEmission .sgap none [(.s, ⟨.primSgap, 0#4, 0#6⟩)] s

/-- OPC p (40_pulse_gap.md R109). -/
def execOpc (p : BitVec 2) (s : State) : Result :=
  submitEmission (.opc p) (checkPage p) (opcodeFrame (p.getLsbD 0) 0#4) s

/-- RSTF (40_pulse_gap.md R110). -/
def execRstf (s : State) : Result :=
  submitEmission .rstf none (resetFrame .reset 0#4) s

end Sys2Proof.Machine
end

