-- ==== Sys2Proof/Machine/BlockWrite.lean ====
section
/-! DEFINITION. The T5577 block write and WBLK (41_block_write.md). -/

namespace Sys2Proof.Machine

/-- `blockseq` (41_block_write.md R130), steps 1 to 10 in order. `pwd` is the password of a password-enabled write
(pwden = 1), and `none` of the others. -/
def blockSeq (page : Bool) (addr : BitVec 3) (lock : Bool) (pwd : Option Word) (data : Word) (b : BitVec 4) :
    List Emission :=
  [(.w, ⟨.preWait, b, 0#6⟩), (.s, ⟨.sof, b, 0#6⟩)] ++
    opcodeFrame page b ++
    (match pwd with
      | some w => bitRun .password b w
      | none => []) ++
    [(Symbol.ofBit lock, ⟨.lock, b, 0#6⟩)] ++
    bitRun .data b data ++
    bitRun .addr b addr ++
    [(.p, ⟨.program, b, 0#6⟩), (.w, ⟨.postWait, b, 0#6⟩)] ++
    resetFrame .reset b

/-- The expansion of WBLK: PASSWORD is read only if `e` = 1 (41_block_write.md R135). -/
def blockExpansion (p : BitVec 2) (n : BitVec 4) (l e : Bool) (s : State) : List Emission :=
  blockSeq (p.getLsbD 0) (n.extractLsb' 0 3) l (if e then some s.password else none) s.data 0#4

/-- WBLK p, n, l, e: the page is checked before the block address (41_block_write.md R135, 60_exceptions.md R184). -/
def execWblk (p : BitVec 2) (n : BitVec 4) (l e : Bool) (s : State) : Result :=
  submitEmission (.wblk p n l e) ((checkPage p).or (checkAddress n)) (blockExpansion p n l e s) s

end Sys2Proof.Machine
end

