-- ==== Sys2Proof/Machine/Sequencer.lean ====
section
/-! DEFINITION. START, STOP and WBATCH (42_sequencer.md). -/

namespace Sys2Proof.Machine

/-- START (42_sequencer.md R151): with a session open, SESSION_ACTIVE; with a profile field 0, BAD_PROFILE
(60_exceptions.md R184). -/
def execStart (s : State) : Result :=
  .next (s.gated fun s =>
    if s.session then s.raiseFault .sessionActive (encode .start)
    else if s.profile.allNonzero then s.openSession
    else s.raiseFault .badProfile (encode .start))

/-- STOP (42_sequencer.md R152). -/
def execStop (s : State) : Result :=
  .next (s.gated State.closeSession)

/-- The expansion of WBATCH: block i is written at address i with BLKi, page 0, lock bit 0 and no password, and a final
reset frame follows (42_sequencer.md R153). -/
def batchExpansion (k : BitVec 4) (blk : Vector Word 8) : List Emission :=
  (((List.finRange 8).take k.toNat).flatMap fun i =>
      blockSeq false (BitVec.ofNat 3 i.val) false none blk[i] (BitVec.ofNat 4 i.val)) ++
    resetFrame .finalReset k

/-- WBATCH k (42_sequencer.md R153). -/
def execWbatch (k : BitVec 4) (s : State) : Result :=
  submitEmission (.wbatch k) (checkCount k) (batchExpansion k s.blk) s

end Sys2Proof.Machine
end

