-- ==== Sys2Proof/Machine/Dispatch.lean ====
section
/-! DEFINITION. The dispatch of a command to its meaning: a host write of its word to CMD (20_memory.md R66,
60_exceptions.md R184). -/

namespace Sys2Proof.Machine

open Sys2Proof

def exec (i : Instr) (s : State) : Host.Outcome State Fault Refusal :=
  match i with
  | .start => Sys2Proof.Machine.execStart s
  | .stop => Sys2Proof.Machine.execStop s
  | .bit v => Sys2Proof.Machine.execBit v s
  | .sgap => Sys2Proof.Machine.execSgap s
  | .opc p => Sys2Proof.Machine.execOpc p s
  | .rstf => Sys2Proof.Machine.execRstf s
  | .wblk p n l e => Sys2Proof.Machine.execWblk p n l e s
  | .wbatch k => Sys2Proof.Machine.execWbatch k s

end Sys2Proof.Machine
end

