-- ==== Sys2Proof/Machine/Engine.lean ====
section
/-! DEFINITION. The engine (42_sequencer.md R160 to R162), at both granularities the spec allows. -/

namespace Sys2Proof.Machine

/-- The engine step of 42_sequencer.md R160: the whole current segment is emitted and the next one becomes current; after
the last, CUR is none and the trace gets End (R162). Without a current segment there is no step. -/
def State.engineStep (s : State) : State :=
  match s.cur with
  | none => s
  | some c =>
    let t := ({ s with latency := 0 }.load s.queue).addEvent (.seg c.seg.level c.seg.d c.seg.tag)
    if s.queue.isEmpty then t.addEvent .ended else t

/-- One `tick_1us` (42_sequencer.md R161): first the ticks of ACCEPT_LAT pass, then each tick takes one from CNT, and the
engine step happens at the tick edge at which CNT reaches 0. Without a current segment a tick changes nothing. -/
def State.tick (s : State) : State :=
  match s.cur with
  | none => s
  | some c =>
    if 0 < s.latency then { s with latency := s.latency - 1 }
    else if c.cnt ≤ Config.tickUs then s.engineStep
    else { s with cur := some ⟨c.seg, c.cnt - Config.tickUs⟩ }

end Sys2Proof.Machine
end

