-- ==== Sys2Proof/Machine/Port.lean ====
section
/-! DEFINITION. The host register port (20_memory.md), the moves of the agents, and the pseudo-instructions of
30_encoding.md R90. -/

namespace Sys2Proof.Machine

open Sys2Proof

/-- The byte offset that a host address has in the register window; `none` outside it (20_memory.md R60, R70). -/
def windowOffset (addr : Nat) : Option Nat :=
  if Config.base ≤ addr ∧ addr < Config.base + Config.windowBytes then some (addr - Config.base) else none

/-- The checks of an access before anything else: its size (20_memory.md R62), its alignment (R63), and that it lies in the
window (R60; log entry 7). `k` is the access's effect at the byte offset bits 7:0. -/
def checkedAccess (off size : Nat) (k : BitVec 8 → Result) : Result :=
  if size = 4 then
    if off % 4 = 0 then
      if off < Config.windowBytes then k (BitVec.ofNat 8 off)
      else .fault (.outsideWindow off)
    else .refused (.misaligned off)
  else .refused (.accessSize size)

/-- `Accept(w)` behind its gates, a write to CMD: the decoded command, or ILLEGAL_CMD
(20_memory.md R66, 60_exceptions.md R184). -/
def submitWord (w : Word) (s : State) : Result :=
  match decode w with
  | .ok i => exec i s
  | .error _ => .next (s.gated fun s => s.raiseFault .illegalCmd w)

/-- `MemRead(off, 4)`: the register's value is returned and nothing else happens (20_memory.md R65). -/
def memRead (off : BitVec 8) (s : State) : Result :=
  .next (s.addRead (s.readReg (regAt (slotOf off))))

/-- `MemWrite(off, 4, w)` (20_memory.md R66). -/
def memWrite (off : BitVec 8) (w : Word) (s : State) : Result :=
  match regAt (slotOf off) with
  | .cmd => submitWord w s
  | r => .next (s.gated fun s => s.storeReg r w)

/-- One host access (20_memory.md R62 to R66). -/
def serveAccess (a : Access) (s : State) : Result :=
  match a with
  | .read off size => checkedAccess off size fun o => memRead o s
  | .write off size w => checkedAccess off size fun o => memWrite o w s

/-- `wait_idle` (30_encoding.md R90): one `rd STATUS`; while BUSY is 1 in the value read, poll again, the engine taking one
step between two polls (log entry 9). -/
def serveWaitIdle (s : State) : Result :=
  let v := s.readReg .status
  let t := s.addRead v
  .next (if v.getLsbD 1 then t.setPending (.engine :: .waitIdle :: t.pending) else t)

/-- One move of an agent. -/
def serve (m : Move) (s : State) : Result :=
  match m with
  | .access a => serveAccess a s
  | .waitIdle => serveWaitIdle s
  | .tick => .next s.tick
  | .engine => .next s.engineStep
  | .reset => .next s.resetBlock

/-- The next move: the first one pending; with none pending, the engine goes on by itself (42_sequencer.md R160), and when
it has no segment the block waits (70_reset_and_hazards.md R212, 60_exceptions.md R199; log entry 1). -/
def advance (s : State) : Result :=
  match s.pending with
  | [] => .next s.engineStep
  | m :: rest => serve m (s.setPending rest)

/-- A 32-bit register write, `wr off, w` (30_encoding.md R89). -/
def wr (off : Nat) (w : Word) : Move := .access (.write off 4 w)

/-- A 32-bit register read, `rd off` (30_encoding.md R89). -/
def rd (off : Nat) : Move := .access (.read off 4)

/-- The next host access is a CMD write of the word (30_encoding.md R80). -/
def State.presentCommand (s : State) (w : Word) : State := s.setPending (wr 0x00 w :: s.pending)

/-- `load_profile` (30_encoding.md R90). -/
def loadProfile (w sg wg d0 d1 pr : Word) : List Move :=
  [wr 0x20 w, wr 0x24 sg, wr 0x28 wg, wr 0x2C d0, wr 0x30 d1, wr 0x34 pr]

/-- The writes `wr BLKi, d` of consecutive blocks from block `i` on (30_encoding.md R90). -/
def loadBlocks (i : Nat) : List Word → List Move
  | [] => []
  | d :: ds => wr (0x40 + 4 * i) d :: loadBlocks (i + 1) ds

/-- `t5577_write k, d0, .., d(k-1)`, k the number of data words (30_encoding.md R90); `none` where k does not fit its field
(R88). DESIGN CHOICE, unsafe, log entry 16: with 9 to 15 words, for which there is no BLKi, the words past BLK7 go to the
offsets 0x40 + 4*i all the same, which are reserved and store nothing, and WBATCH k raises BAD_BLOCK. -/
def t5577Write (ds : List Word) : Option (List Move) :=
  if ds.length < 16 then
    some (loadBlocks 0 ds ++ [wr 0x00 (encode (.wbatch (BitVec.ofNat 4 ds.length))), .waitIdle])
  else none

/-- `write_block p, n, l, data` (30_encoding.md R90). -/
def writeBlock (p : BitVec 2) (n : BitVec 4) (l : Bool) (data : Word) : List Move :=
  [wr 0x14 data, wr 0x00 (encode (.wblk p n l false)), .waitIdle]

/-- `write_block_pwd p, n, l, data, pwd` (30_encoding.md R90). -/
def writeBlockPwd (p : BitVec 2) (n : BitVec 4) (l : Bool) (data pwd : Word) : List Move :=
  [wr 0x14 data, wr 0x18 pwd, wr 0x00 (encode (.wblk p n l true)), .waitIdle]

end Sys2Proof.Machine
end

