-- ==== Sys2Proof/Machine/Observe.lean ====
section
/-! DEFINITION. What a model observes of a run: the antenna envelope read from the event trace, merged as the antenna
merges it, and the registers with both traces (40_pulse_gap.md R105; 42_sequencer.md R164 to R166). -/

namespace Sys2Proof.Machine

/-- The carrier stopped for an undetermined time: before `On` and after `Off` (42_sequencer.md R165). -/
def Piece.stopped : Piece := ⟨false, 0, false⟩

/-- The idle carrier of a session, on for an undetermined time (42_sequencer.md R164, R165). -/
def Piece.idle : Piece := ⟨true, 0, false⟩

/-- The pieces of the envelope that an event begins (42_sequencer.md R165). DESIGN CHOICE, unsafe, log entry 15: a segment
without its Seg item, the one a reset cuts or the one still current, has no piece. -/
def Event.pieces : Event → List Piece
  | .on => [Piece.idle]
  | .ended => [Piece.idle]
  | .off => [Piece.stopped]
  | .seg level d _ => [⟨level == .cw, d, true⟩]
  | .began _ => []
  | .fault _ _ => []
  | .reset => []

/-- Put a piece before an envelope: two adjacent pieces at one level become one of their summed duration, exact only if both
are (40_pulse_gap.md R105). -/
def mergePiece (p : Piece) : List Piece → List Piece
  | [] => [p]
  | q :: rest =>
    if p.carrier = q.carrier then ⟨p.carrier, p.d + q.d, p.exact && q.exact⟩ :: rest else p :: q :: rest

/-- The envelope after merging (40_pulse_gap.md R105). -/
def mergePieces (ps : List Piece) : List Piece := ps.foldr mergePiece []

/-- The antenna envelope of an event trace (42_sequencer.md R165, 40_pulse_gap.md R105). DESIGN CHOICE, unsafe, log entry 15:
between a Begin that has no End and what follows it, the rules give no reading; here the Seg items there are read as they stand,
and the part of the cut segment already played is not shown, so a cut CW after a GAP is missing, and a P before a cut W keeps
its own duration as exact. -/
def envelope (es : List Event) : List Piece := mergePieces (Piece.stopped :: es.flatMap Event.pieces)

/-- The observation of a run: every register of the window as the host reads it, by word slot, and both traces
(42_sequencer.md R166). -/
structure Observation where
  regs : List Word
  events : List Event
  symbols : List Emission
  deriving DecidableEq, Repr

/-- What the state shows (42_sequencer.md R166). -/
def State.observe (s : State) : Observation :=
  ⟨(List.range 64).map fun k => s.readReg (regAt (BitVec.ofNat 6 k)), s.events, s.symbols⟩

end Sys2Proof.Machine
end

