-- ==== Sys2Proof/Safety.lean ====
section
/-! DEFINITION. The terms in which claims speak: when a command is accepted, faulted and correct runs, and the invariant of
the block. -/

namespace Sys2Proof.Machine

open Sys2Proof

/-- The block examines commands: HALT = 0 and BUSY = 0 (60_exceptions.md R184). -/
structure State.Accepting (s : State) : Prop where
  running : s.halt = false
  quiet : s.cur = none

/-- The control state ACTIVE: a session, no command in progress, no fault (42_sequencer.md R150). -/
structure State.Active (s : State) : Prop extends s.Accepting where
  session : s.session = true

/-- The control state IDLE: no session, no fault (42_sequencer.md R150). -/
structure State.Idle (s : State) : Prop extends s.Accepting where
  noSession : s.session = false

/-- The control state WRITING, on the segment `c` (42_sequencer.md R150). -/
structure State.Writing (s : State) (c : Current) : Prop where
  running : s.halt = false
  session : s.session = true
  current : s.cur = some c

/-- A faulted run ends with HALT = 1 (42_sequencer.md R166). -/
def State.faulted (s : State) : Bool := s.halt

/-- A correct run has HALT = 0 and OVR = 0 (42_sequencer.md R166). -/
def State.correct (s : State) : Bool := !s.halt && !s.ovr

/-- A run with CUR ≠ none is not over (42_sequencer.md R166). -/
def State.over (s : State) : Bool := s.cur.isNone

/-- An access the block admits: 32 bits, aligned, in the window (20_memory.md R61 to R63). -/
structure Admitted (off size : Nat) : Prop where
  word : size = 4
  aligned : off % 4 = 0
  inWindow : off < 256

/-- A segment as the block makes it: at least one profile unit and at most the longest duration (40_pulse_gap.md R105,
00_scope.md R9), and a tag in the ranges of POS (10_state.md R33). -/
structure Segment.Sound (g : Segment) : Prop where
  long : 8 ≤ g.d
  short : g.d ≤ 524280
  blk : g.tag.blkIdx.toNat ≤ 8
  bit : g.tag.bitIdx.toNat ≤ 31

/-- What holds of the block at reset and after every step. -/
structure State.Inv (s : State) : Prop where
  /-- BUSY = 1 implies SESSION = 1 and HALT = 0 (10_state.md R24). -/
  busyOpen : s.cur ≠ none → s.session = true ∧ s.halt = false
  /-- When CUR = none, Q is empty (10_state.md R44). -/
  quietEmpty : s.cur = none → s.queue = []
  /-- 1 ≤ CNT ≤ d (10_state.md R44). -/
  count : ∀ c, s.cur = some c → 1 ≤ c.cnt ∧ c.cnt ≤ c.seg.d
  /-- The current segment is sound. -/
  curSound : ∀ c, s.cur = some c → c.seg.Sound
  /-- Every segment still to come is sound. -/
  queueSound : ∀ g ∈ s.queue, g.Sound
  /-- In a session every ACT field is at least 1 (40_pulse_gap.md R105, 42_sequencer.md R151). -/
  actNonzero : s.session = true → s.act.allNonzero = true
  /-- HALTED has no session (42_sequencer.md R150, 60_exceptions.md R185). -/
  haltClosed : s.halt = true → s.session = false
  /-- While no fault has been taken, CAUSE and FAULT_CMD are 0 (10_state.md R31, R32). -/
  noRecord : s.halt = false → s.cause = .noFault ∧ s.faultCmd = 0#32
  /-- After a fault CAUSE is one of the codes 1 to 6 (60_exceptions.md R180). -/
  record : s.halt = true → s.cause ≠ .noFault

/-- The bits of a word that the command of an OP value does not use, as the "used by" column of 30_encoding.md R81 gives
them: they must be 0 (R83). -/
def unusedBits (op : BitVec 4) : Word :=
  match op.toNat with
  | 3 => 0xFFFFEFF0#32
  | 5 => 0xFFFFFFC0#32
  | 7 => 0xFFFFF000#32
  | 8 => 0xFFFFF0F0#32
  | _ => 0xFFFFFFF0#32

/-- The word that the register map gives at a byte offset (10_state.md R21, R22, R36, R39). -/
def windowWord (s : State) (off : Nat) : Word :=
  if off = 0x04 then s.status
  else if off = 0x08 then s.faultWord
  else if off = 0x0C then s.faultCmd
  else if off = 0x10 then s.pos
  else if off = 0x14 then s.data
  else if off = 0x18 then s.password
  else if off = 0x20 then s.profile.waitTime.setWidth 32
  else if off = 0x24 then s.profile.startGap.setWidth 32
  else if off = 0x28 then s.profile.writeGap.setWidth 32
  else if off = 0x2C then s.profile.data0.setWidth 32
  else if off = 0x30 then s.profile.data1.setWidth 32
  else if off = 0x34 then s.profile.program.setWidth 32
  else if 0x40 ≤ off ∧ off < 0x60 then (s.blk[(off - 0x40) / 4]?).getD 0#32
  else 0#32

/-- The event of a segment emitted whole (42_sequencer.md R160). -/
def Segment.event (g : Segment) : Event := .seg g.level g.d g.tag

/-- A symbol that is one bit (40_pulse_gap.md R100). -/
def Symbol.isBit : Symbol → Bool
  | .b0 => true
  | .b1 => true
  | .w => false
  | .p => false
  | .s => false

/-- How often a symbol stands in an expansion. -/
def countSymbol (y : Symbol) (es : List Emission) : Nat := es.countP fun e => e.1 == y

/-- How many bit symbols an expansion has. -/
def countBits (es : List Emission) : Nat := es.countP fun e => e.1.isBit

/-- How many field gaps a segment list has. -/
def countGaps (gs : List Segment) : Nat := gs.countP fun g => g.level == .gap

end Sys2Proof.Machine
end

