-- ==== Sys2Proof/Certificates/Slice0/Obligations.lean ====
section
/-! DEFINITION. The statements for the provers. A statement that gives the next state as a record of the old one also states
the frame: every field it does not name is unchanged. The block has no byte memory (20_memory.md R60), so there is no memory
clause. The model's own fields `pending`, `reads`, `latency` and `freeCount` are the model's choice (log entries 1, 2, 5). -/

open Sys2Proof Sys2Proof.Machine

/-! ### Reset -/

/-- 10_state.md R47: the value of every state element after reset. ACT, which R47 leaves unspecified, is not spoken of. -/
def Obligations.ResetLeavesEveryElementAtItsValue : Prop :=
  (∀ r, State.reset.readReg r = 0#32) ∧
    State.reset.session = false ∧ State.reset.busy = false ∧ State.reset.excl = false ∧ State.reset.cwEn = false ∧
    State.reset.halt = false ∧ State.reset.ovr = false ∧ State.reset.phaseCode = 0#4 ∧
    State.reset.cause = .noFault ∧ State.reset.faultCmd = 0#32 ∧ State.reset.pos = 0#32 ∧
    State.reset.data = 0#32 ∧ State.reset.password = 0#32 ∧
    State.reset.profile = ⟨0#16, 0#16, 0#16, 0#16, 0#16, 0#16⟩ ∧
    (∀ i : Fin 8, State.reset.blk[i] = 0#32) ∧
    State.reset.cur = none ∧ State.reset.queue = [] ∧
    State.reset.carrierOut = .floating ∧ State.reset.pinBind = false ∧ State.reset.pullEn = false ∧
    State.reset.own = false

/-- 70_reset_and_hazards.md section 1 (R210, R211): from any state the reset move gives every element its reset value,
abandons a command in progress, and appends Off if a session was open, then Reset. One reset move stands for a whole low
period of `rst_n` (log entry 8), and the records of the run go on. -/
def Obligations.ResetMoveAbandonsEverything : Prop :=
  ∀ (s : State) (rest : List Move), s.pending = .reset :: rest →
    ∃ t, step s = .next t ∧
      t = { State.reset with
        act := t.act
        freeCount := t.freeCount
        events := s.events ++ (if s.session then [Event.off] else []) ++ [.reset]
        symbols := s.symbols
        pending := rest
        reads := s.reads } ∧
      t.cwEn = false ∧ t.pinBind = false ∧ t.control = some .idle

/-! ### Decoding -/

/-- 30_encoding.md sections 1 and 4: the word of a command decodes to it, with every operand at every value. -/
def Obligations.DecodeOfEncode : Prop :=
  ∀ i : Instr, decode (encode i) = .ok i

/-- 30_encoding.md section 1: a word that decodes to a command is that command's one word, so the word recorded in FAULT_CMD
is the word written. -/
def Obligations.EncodeOfDecode : Prop :=
  ∀ (w : Word) (i : Instr), decode w = .ok i → encode i = w

/-- 30_encoding.md section 1: at most one row matches any word. -/
def Obligations.AtMostOneRowMatches : Prop :=
  ∀ (w : Word) (j k : Fin rows.length), rows[j].hits w = true → rows[k].hits w = true → j = k

/-- 30_encoding.md R86 and 60_exceptions.md R183: a word is Illegal exactly when OP is 0x0 or 0x9 to 0xF or a reserved or
unused bit is nonzero, and then its acceptance raises ILLEGAL_CMD. -/
def Obligations.IllegalWordsRaiseIllegalCmd : Prop :=
  (∀ w : Word, (∃ e, decode w = .error e) ↔
      ((opField w).toNat = 0 ∨ 9 ≤ (opField w).toNat ∨ w &&& unusedBits (opField w) ≠ 0#32)) ∧
    ∀ (s : State) (w : Word) (rest : List Move), s.Accepting → s.pending = wr 0 w :: rest →
      ((opField w).toNat = 0 ∨ 9 ≤ (opField w).toNat ∨ w &&& unusedBits (opField w) ≠ 0#32) →
        step s = .next ((s.setPending rest).raiseFault .illegalCmd w)

/-- 30_encoding.md section 1: words written out bit by bit from the patterns of R83 decode to their commands. -/
def Obligations.TableWordsDecode : Prop :=
  decode 0b00000000000000000000000000000001#32 = .ok .start ∧
    decode 0b00000000000000000000000000000010#32 = .ok .stop ∧
    decode 0b00000000000000000001000000000011#32 = .ok (.bit true) ∧
    decode 0b00000000000000000000000000000100#32 = .ok .sgap ∧
    decode 0b00000000000000000000000000010101#32 = .ok (.opc 1#2) ∧
    decode 0b00000000000000000000000000000110#32 = .ok .rstf ∧
    decode 0b00000000000000000000001111010111#32 = .ok (.wblk 1#2 3#4 true true) ∧
    decode 0b00000000000000000000001000001000#32 = .ok (.wbatch 2#4) ∧
    decode 0b00000000000000000010000000000011#32 = .error .field ∧
    decode 0b00000000000000000000000000001111#32 = .error .opcode

/-- A step runs the decoded command: when the next move is a host write to CMD of a word that decodes to `i`, the step is
`exec i` of the state with that move taken off (30_encoding.md R84, 60_exceptions.md R184; the list of moves is the model's,
log entry 1). -/
def Obligations.StepRunsTheDecodedCommand : Prop :=
  ∀ (s : State) (w : Word) (rest : List Move) (i : Instr), s.pending = wr 0 w :: rest → decode w = .ok i →
    step s = exec i (s.setPending rest)

/-! ### The host port -/

/-- 20_memory.md R66: what an admitted write does, in its order: the HALT gate, the BUSY gate, and the case on the offset. -/
def Obligations.WritesFollowTheCaseOfTheOffset : Prop :=
  ∀ (s : State) (off : Nat) (w : Word) (rest : List Move), Admitted off 4 → s.pending = wr off w :: rest →
    (s.halt = true → step s = .next { s with pending := rest }) ∧
    (s.halt = false → s.cur ≠ none → step s = .next { s with pending := rest, ovr := true }) ∧
    (s.Accepting →
      (off = 0x00 →
        (∀ i, decode w = .ok i → step s = exec i { s with pending := rest }) ∧
        (∀ e, decode w = .error e →
          step s = .next (State.raiseFault { s with pending := rest } .illegalCmd w))) ∧
      (off = 0x14 → step s = .next { s with pending := rest, data := w }) ∧
      (off = 0x18 → step s = .next { s with pending := rest, password := w }) ∧
      (off = 0x20 → step s = .next { s with pending := rest, profile := { s.profile with waitTime := w.extractLsb' 0 16 } }) ∧
      (off = 0x24 → step s = .next { s with pending := rest, profile := { s.profile with startGap := w.extractLsb' 0 16 } }) ∧
      (off = 0x28 → step s = .next { s with pending := rest, profile := { s.profile with writeGap := w.extractLsb' 0 16 } }) ∧
      (off = 0x2C → step s = .next { s with pending := rest, profile := { s.profile with data0 := w.extractLsb' 0 16 } }) ∧
      (off = 0x30 → step s = .next { s with pending := rest, profile := { s.profile with data1 := w.extractLsb' 0 16 } }) ∧
      (off = 0x34 → step s = .next { s with pending := rest, profile := { s.profile with program := w.extractLsb' 0 16 } }) ∧
      (∀ i : Fin 8, off = 0x40 + 4 * i.val → step s = .next { s with pending := rest, blk := s.blk.set i w }) ∧
      ((off = 0x04 ∨ off = 0x08 ∨ off = 0x0C ∨ off = 0x10 ∨ off = 0x1C ∨ off = 0x38 ∨ off = 0x3C ∨ 0x60 ≤ off) →
        step s = .next { s with pending := rest }))

/-- 20_memory.md R65: a read returns the register's current value, whatever the state, and changes nothing of the block;
the model's record of the word returned is its own field. -/
def Obligations.ReadsReturnTheRegisterAndChangeNothing : Prop :=
  ∀ (s : State) (off : Nat) (rest : List Move), Admitted off 4 → s.pending = rd off :: rest →
    step s = .next { s with pending := rest, reads := s.reads ++ [windowWord s off] }

/-- 20_memory.md section 2 (R62, R63): an access of another size, or misaligned, is refused. Which name a refusal has where an
access is both, and that both checks come before the window's, is the model's choice (log entry 7). -/
def Obligations.IllFormedAccessesAreRefused : Prop :=
  ∀ (s : State) (off size : Nat) (w : Word) (rest : List Move),
    (size ≠ 4 → s.pending = .access (.read off size) :: rest → step s = .refused (.accessSize size)) ∧
    (size ≠ 4 → s.pending = .access (.write off size w) :: rest → step s = .refused (.accessSize size)) ∧
    (off % 4 ≠ 0 → s.pending = rd off :: rest → step s = .refused (.misaligned off)) ∧
    (off % 4 ≠ 0 → s.pending = wr off w :: rest → step s = .refused (.misaligned off))

/-- The model's choice (log entry 7; 20_memory.md section 1): a well-formed access past the 256-byte window stops by name. -/
def Obligations.AccessesPastTheWindowStop : Prop :=
  ∀ (s : State) (off : Nat) (w : Word) (rest : List Move), off % 4 = 0 → 256 ≤ off →
    (s.pending = rd off :: rest → step s = .fault (.outsideWindow off)) ∧
    (s.pending = wr off w :: rest → step s = .fault (.outsideWindow off))

/-- 20_memory.md sections 1 and 6 (R60, R70): the window is the 256 bytes from BASE, and a host address selects a byte offset in
it only there. -/
def Obligations.WindowIsRelativeToBase : Prop :=
  ∀ addr off : Nat, windowOffset addr = some off ↔ addr = Config.base + off ∧ off < 256

/-- 20_memory.md R64: the byte lanes of a word are little-endian, and the four lanes make up the word. -/
def Obligations.ByteLanesAreLittleEndian : Prop :=
  (∀ (w : Word) (j : Fin 4) (i : Nat), i < 8 → (laneByte w j).getLsbD i = w.getLsbD (8 * j.val + i)) ∧
    ∀ w : Word, wordOfLanes (laneByte w 0) (laneByte w 1) (laneByte w 2) (laneByte w 3) = w

/-- 10_state.md R28: a host write discarded while BUSY sets OVR and is no fault, and only a reset clears OVR. -/
def Obligations.OverrunIsStickyAndNoFault : Prop :=
  (∀ (s : State) (off : Nat) (w : Word) (rest : List Move), Admitted off 4 → s.halt = false → s.cur ≠ none →
      s.pending = wr off w :: rest → ∃ t, step s = .next t ∧ t.ovr = true ∧ t.halt = false ∧ t.cause = s.cause) ∧
    ∀ s t : State, s.ovr = true → (∀ rest, s.pending ≠ .reset :: rest) → step s = .next t → t.ovr = true

/-- 60_exceptions.md R189: a write discarded while BUSY is not a fault: everything but OVR stays, so the running command goes
on, the block does not halt and FAULT is unchanged. -/
def Obligations.BusyWriteLeavesTheCommandRunning : Prop :=
  ∀ (s : State) (off : Nat) (w : Word) (rest : List Move), Admitted off 4 → s.halt = false → s.cur ≠ none →
    s.pending = wr off w :: rest → step s = .next { s with pending := rest, ovr := true }

/-! ### START and STOP -/

/-- START completes: outside a session, with six nonzero profile fields, it latches the profile into ACT, opens the session
and appends On, and changes nothing else (42_sequencer.md section 2). -/
def Obligations.StartOpensTheSession : Prop :=
  ∀ s : State, s.Idle →
    s.profile.waitTime ≠ 0#16 → s.profile.startGap ≠ 0#16 → s.profile.writeGap ≠ 0#16 →
    s.profile.data0 ≠ 0#16 → s.profile.data1 ≠ 0#16 → s.profile.program ≠ 0#16 →
    exec .start s = .next { s with act := s.profile, session := true, events := s.events ++ [.on] } ∧
      State.cwEn { s with act := s.profile, session := true, events := s.events ++ [.on] } = true

/-- STOP completes: in a session it closes the session, carrier off, appends Off, leaves ACT unspecified, and changes nothing
else; without a session it has no effect at all (42_sequencer.md section 3). Nothing is said of ACT's free value. -/
def Obligations.StopClosesTheSession : Prop :=
  (∀ s : State, s.Active → ∃ t, exec .stop s = .next t ∧
      t = { s with session := false, act := t.act, freeCount := t.freeCount, events := s.events ++ [.off] } ∧
      t.cwEn = false ∧ t.own = false ∧ t.pinBind = false) ∧
    ∀ s : State, s.Idle → exec .stop s = .next s

/-! ### The emission commands -/

/-- BIT v completes in every session: CW for `data_1` or `data_0` units of 8 µs is current, GAP for `write_gap` units follows
(40_pulse_gap.md sections 1 and 3, 42_sequencer.md section 5). -/
def Obligations.BitEmitsHoldThenGap : Prop :=
  ∀ (s : State) (v : Bool), s.Active →
    exec (.bit v) s = .next { s with
      cur := some ⟨⟨.cw, 8 * (if v then s.act.data1 else s.act.data0).toNat, ⟨.primBit, 0#4, 0#6⟩⟩,
        8 * (if v then s.act.data1 else s.act.data0).toNat⟩
      queue := [⟨.gap, 8 * s.act.writeGap.toNat, ⟨.primBit, 0#4, 0#6⟩⟩]
      latency := Config.acceptLat
      events := s.events ++ [.began 3#4]
      symbols := s.symbols ++ [(if v then .b1 else .b0, ⟨.primBit, 0#4, 0#6⟩)] }

/-- SGAP completes in every session: GAP for `start_gap` units (40_pulse_gap.md sections 1 and 4). -/
def Obligations.SgapEmitsTheStartGap : Prop :=
  ∀ s : State, s.Active →
    exec .sgap s = .next { s with
      cur := some ⟨⟨.gap, 8 * s.act.startGap.toNat, ⟨.primSgap, 0#4, 0#6⟩⟩, 8 * s.act.startGap.toNat⟩
      queue := []
      latency := Config.acceptLat
      events := s.events ++ [.began 4#4]
      symbols := s.symbols ++ [(.s, ⟨.primSgap, 0#4, 0#6⟩)] }

/-- OPC p completes in every session for p = 0 and p = 1: bit 1, then bit p (40_pulse_gap.md sections 1 and 5). -/
def Obligations.OpcEmitsOneThenThePage : Prop :=
  ∀ (s : State) (p : BitVec 2), s.Active → p.toNat ≤ 1 →
    exec (.opc p) s = .next { s with
      cur := some ⟨⟨.cw, 8 * s.act.data1.toNat, ⟨.opcode, 0#4, 0#6⟩⟩, 8 * s.act.data1.toNat⟩
      queue :=
        [⟨.gap, 8 * s.act.writeGap.toNat, ⟨.opcode, 0#4, 0#6⟩⟩,
          ⟨.cw, 8 * (if p = 1#2 then s.act.data1 else s.act.data0).toNat, ⟨.opcode, 0#4, 1#6⟩⟩,
          ⟨.gap, 8 * s.act.writeGap.toNat, ⟨.opcode, 0#4, 1#6⟩⟩]
      latency := Config.acceptLat
      events := s.events ++ [.began 5#4]
      symbols := s.symbols ++
        [(.b1, ⟨.opcode, 0#4, 0#6⟩), (if p = 1#2 then .b1 else .b0, ⟨.opcode, 0#4, 1#6⟩)] }

/-- RSTF completes in every session: start gap, bit 1, bit 0 (40_pulse_gap.md sections 1 and 6). -/
def Obligations.RstfEmitsTheResetFrame : Prop :=
  ∀ s : State, s.Active →
    exec .rstf s = .next { s with
      cur := some ⟨⟨.gap, 8 * s.act.startGap.toNat, ⟨.reset, 0#4, 0#6⟩⟩, 8 * s.act.startGap.toNat⟩
      queue :=
        [⟨.cw, 8 * s.act.data1.toNat, ⟨.reset, 0#4, 1#6⟩⟩, ⟨.gap, 8 * s.act.writeGap.toNat, ⟨.reset, 0#4, 1#6⟩⟩,
          ⟨.cw, 8 * s.act.data0.toNat, ⟨.reset, 0#4, 2#6⟩⟩, ⟨.gap, 8 * s.act.writeGap.toNat, ⟨.reset, 0#4, 2#6⟩⟩]
      latency := Config.acceptLat
      events := s.events ++ [.began 6#4]
      symbols := s.symbols ++ [(.s, ⟨.reset, 0#4, 0#6⟩), (.b1, ⟨.reset, 0#4, 1#6⟩), (.b0, ⟨.reset, 0#4, 2#6⟩)] }

/-- WBLK completes in every session for pages 0 and 1 and addresses 0 to 7: the segments of `blockseq` of DATA, and of
PASSWORD if e = 1, become CUR and Q (41_block_write.md section 3). `blockseq` is BlockSequenceOrder's. -/
def Obligations.WblkEmitsTheBlockSequence : Prop :=
  ∀ (s : State) (p : BitVec 2) (n : BitVec 4) (l e : Bool), s.Active → p.toNat ≤ 1 → n.toNat ≤ 7 →
    ∃ g gs, expand s.act
        (blockSeq (p == 1#2) (BitVec.ofNat 3 n.toNat) l (if e then some s.password else none) s.data 0#4) = g :: gs ∧
      exec (.wblk p n l e) s = .next { s with
        cur := some ⟨g, g.d⟩
        queue := gs
        latency := Config.acceptLat
        events := s.events ++ [.began 7#4]
        symbols := s.symbols ++
          blockSeq (p == 1#2) (BitVec.ofNat 3 n.toNat) l (if e then some s.password else none) s.data 0#4 }

/-- WBATCH k completes in every session for k from 0 to 8: the segments of the batch become CUR and Q
(42_sequencer.md section 4). The batch is BatchSequenceOrder's. -/
def Obligations.WbatchEmitsTheBatch : Prop :=
  ∀ (s : State) (k : BitVec 4), s.Active → k.toNat ≤ 8 →
    ∃ g gs, expand s.act (batchExpansion k s.blk) = g :: gs ∧
      exec (.wbatch k) s = .next { s with
        cur := some ⟨g, g.d⟩
        queue := gs
        latency := Config.acceptLat
        events := s.events ++ [.began 8#4]
        symbols := s.symbols ++ batchExpansion k s.blk }

/-! ### The block sequence and the batch -/

/-- 41_block_write.md R130 (and R132 to R134): the symbols of `blockseq` in order, each with its tag, position by position,
without and with a password. -/
def Obligations.BlockSequenceOrder : Prop :=
  ∀ (page : Bool) (addr : BitVec 3) (lock : Bool) (pwd : Option Word) (data : Word) (b : BitVec 4) (m : Nat),
    m = (match pwd with | some _ => 32 | none => 0) →
    (blockSeq page addr lock pwd data b).length = 45 + m ∧
    (blockSeq page addr lock pwd data b)[0]? = some (.w, ⟨.preWait, b, 0#6⟩) ∧
    (blockSeq page addr lock pwd data b)[1]? = some (.s, ⟨.sof, b, 0#6⟩) ∧
    (blockSeq page addr lock pwd data b)[2]? = some (.b1, ⟨.opcode, b, 0#6⟩) ∧
    (blockSeq page addr lock pwd data b)[3]? = some (if page then .b1 else .b0, ⟨.opcode, b, 1#6⟩) ∧
    (∀ w, pwd = some w → ∀ j < 32, (blockSeq page addr lock pwd data b)[4 + j]? =
      some (if w.getLsbD (31 - j) then .b1 else .b0, ⟨.password, b, BitVec.ofNat 6 j⟩)) ∧
    (blockSeq page addr lock pwd data b)[4 + m]? = some (if lock then .b1 else .b0, ⟨.lock, b, 0#6⟩) ∧
    (∀ j < 32, (blockSeq page addr lock pwd data b)[5 + m + j]? =
      some (if data.getLsbD (31 - j) then .b1 else .b0, ⟨.data, b, BitVec.ofNat 6 j⟩)) ∧
    (∀ j < 3, (blockSeq page addr lock pwd data b)[37 + m + j]? =
      some (if addr.getLsbD (2 - j) then .b1 else .b0, ⟨.addr, b, BitVec.ofNat 6 j⟩)) ∧
    (blockSeq page addr lock pwd data b)[40 + m]? = some (.p, ⟨.program, b, 0#6⟩) ∧
    (blockSeq page addr lock pwd data b)[41 + m]? = some (.w, ⟨.postWait, b, 0#6⟩) ∧
    (blockSeq page addr lock pwd data b)[42 + m]? = some (.s, ⟨.reset, b, 0#6⟩) ∧
    (blockSeq page addr lock pwd data b)[43 + m]? = some (.b1, ⟨.reset, b, 1#6⟩) ∧
    (blockSeq page addr lock pwd data b)[44 + m]? = some (.b0, ⟨.reset, b, 2#6⟩)

/-- 41_block_write.md R136: the counts of a block write, without a password and with one. -/
def Obligations.BlockSequenceCounts : Prop :=
  ∀ (a : Profile) (page : Bool) (addr : BitVec 3) (lock : Bool) (data pwd : Word) (b : BitVec 4),
    ((blockSeq page addr lock none data b).length = 45 ∧
      countBits ((blockSeq page addr lock none data b).take 40) = 38 ∧
      countBits (blockSeq page addr lock none data b) = 40 ∧
      countSymbol .s (blockSeq page addr lock none data b) = 2 ∧
      countSymbol .w (blockSeq page addr lock none data b) = 2 ∧
      countSymbol .p (blockSeq page addr lock none data b) = 1 ∧
      (expand a (blockSeq page addr lock none data b)).length = 85 ∧
      countGaps (expand a (blockSeq page addr lock none data b)) = 42) ∧
    ((blockSeq page addr lock (some pwd) data b).length = 77 ∧
      countBits (blockSeq page addr lock (some pwd) data b) = 72 ∧
      (expand a (blockSeq page addr lock (some pwd) data b)).length = 149 ∧
      countGaps (expand a (blockSeq page addr lock (some pwd) data b)) = 74)

/-- 41_block_write.md R137: the duration of a block write by its counts of bit symbols, of which the first opcode bit and the
first reset bit are B1 and the second reset bit is B0. -/
def Obligations.BlockSequenceDuration : Prop :=
  ∀ (a : Profile) (page : Bool) (addr : BitVec 3) (lock : Bool) (pwd : Option Word) (data : Word) (b : BitVec 4),
    totalDuration (expand a (blockSeq page addr lock pwd data b)) =
      2 * dur a.waitTime + 2 * dur a.startGap + dur a.program +
        countSymbol .b1 (blockSeq page addr lock pwd data b) * (dur a.data1 + dur a.writeGap) +
        countSymbol .b0 (blockSeq page addr lock pwd data b) * (dur a.data0 + dur a.writeGap) ∧
    ((blockSeq page addr lock pwd data b)[2]?).map Prod.fst = some .b1 ∧
    ((blockSeq page addr lock pwd data b).reverse[1]?).map Prod.fst = some .b1 ∧
    ((blockSeq page addr lock pwd data b).reverse[0]?).map Prod.fst = some .b0

/-- 42_sequencer.md section 4: block i of a batch is the block sequence of page 0, address i, lock bit 0, no password and
BLKi, with BLKIDX i; the final reset frame, with BLKIDX k, ends the batch. -/
def Obligations.BatchSequenceOrder : Prop :=
  ∀ (k : BitVec 4) (blk : Vector Word 8), k.toNat ≤ 8 →
    (∀ i : Fin 8, i.val < k.toNat →
      ((batchExpansion k blk).drop (45 * i.val)).take 45 =
        blockSeq false (BitVec.ofNat 3 i.val) false none blk[i] (BitVec.ofNat 4 i.val)) ∧
    (batchExpansion k blk).drop (45 * k.toNat) =
      [(.s, ⟨.finalReset, k, 0#6⟩), (.b1, ⟨.finalReset, k, 1#6⟩), (.b0, ⟨.finalReset, k, 2#6⟩)]

/-- 42_sequencer.md R154: the counts of a batch of k blocks. -/
def Obligations.BatchCounts : Prop :=
  ∀ (a : Profile) (k : BitVec 4) (blk : Vector Word 8), k.toNat ≤ 8 →
    (batchExpansion k blk).length = 45 * k.toNat + 3 ∧
    countBits (batchExpansion k blk) = 40 * k.toNat + 2 ∧
    countSymbol .s (batchExpansion k blk) = 2 * k.toNat + 1 ∧
    (expand a (batchExpansion k blk)).length = 85 * k.toNat + 5 ∧
    countGaps (expand a (batchExpansion k blk)) = 42 * k.toNat + 3

/-- 42_sequencer.md section 4 (V35): a batch reads no BLK register at or above its count. -/
def Obligations.BatchReadsOnlyItsBlocks : Prop :=
  ∀ (s : State) (k : BitVec 4) (blk : Vector Word 8), (∀ i : Fin 8, i.val < k.toNat → blk[i] = s.blk[i]) →
    ∃ t, exec (.wbatch k) s = .next t ∧ exec (.wbatch k) { s with blk := blk } = .next { t with blk := blk }

/-- 70_reset_and_hazards.md R219: the durations of the five symbols, in microseconds. -/
def Obligations.SymbolDurations : Prop :=
  ∀ a : Profile,
    Symbol.parts a .w = [(.cw, 8 * a.waitTime.toNat)] ∧
    Symbol.parts a .p = [(.cw, 8 * a.program.toNat)] ∧
    Symbol.parts a .s = [(.gap, 8 * a.startGap.toNat)] ∧
    Symbol.parts a .b0 = [(.cw, 8 * a.data0.toNat), (.gap, 8 * a.writeGap.toNat)] ∧
    Symbol.parts a .b1 = [(.cw, 8 * a.data1.toNat), (.gap, 8 * a.writeGap.toNat)]

/-- 00_scope.md section 6: a duration is at most 524280 µs, and is the 20-bit product of 8 and the zero-extended field. -/
def Obligations.DurationsFitTwentyBits : Prop :=
  ∀ f : Field, dur f ≤ 524280 ∧ (8#20 * f.setWidth 20).toNat = dur f

/-! ### Faults -/

/-- 60_exceptions.md R185: what fault entry does in any state, and what it keeps. ACT's free value is not spoken of. -/
def Obligations.FaultEntryRecordsAndCloses : Prop :=
  ∀ (s : State) (c : Cause) (w : Word),
    s.raiseFault c w = { s with
      cause := c
      faultCmd := w
      halt := true
      session := false
      act := (s.raiseFault c w).act
      freeCount := (s.raiseFault c w).freeCount
      events := s.events ++ [.fault c w] ++ (if s.session then [Event.off] else []) } ∧
    (s.raiseFault c w).cwEn = false ∧ (s.raiseFault c w).carrierOut = .floating ∧ (s.raiseFault c w).own = false ∧
    (s.raiseFault c w).pinBind = false ∧ (s.raiseFault c w).pullEn = false

/-- 60_exceptions.md R182: an emission command without a session raises NO_SESSION, START within one raises SESSION_ACTIVE,
and STOP without one raises nothing. -/
def Obligations.SessionMisuseFaults : Prop :=
  (∀ (s : State) (i : Instr), s.Idle → i ≠ .start → i ≠ .stop →
      exec i s = .next (s.raiseFault .noSession (encode i))) ∧
    (∀ s : State, s.Active → exec .start s = .next (s.raiseFault .sessionActive (encode .start))) ∧
    ∀ s : State, s.Idle → ∃ t, exec .stop s = .next t ∧ t.halt = false ∧ t.cause = s.cause

/-- 60_exceptions.md R181 in the order of R184: with the session as the command needs it, a bad page raises BAD_PAGE, then a
bad block address or count BAD_BLOCK, and a zero profile field BAD_PROFILE. -/
def Obligations.BadOperandsFault : Prop :=
  (∀ (s : State) (p : BitVec 2), s.Active → 1 < p.toNat →
      exec (.opc p) s = .next (s.raiseFault .badPage (encode (.opc p)))) ∧
    (∀ (s : State) (p : BitVec 2) (n : BitVec 4) (l e : Bool), s.Active → 1 < p.toNat →
      exec (.wblk p n l e) s = .next (s.raiseFault .badPage (encode (.wblk p n l e)))) ∧
    (∀ (s : State) (p : BitVec 2) (n : BitVec 4) (l e : Bool), s.Active → p.toNat ≤ 1 → 7 < n.toNat →
      exec (.wblk p n l e) s = .next (s.raiseFault .badBlock (encode (.wblk p n l e)))) ∧
    (∀ (s : State) (k : BitVec 4), s.Active → 8 < k.toNat →
      exec (.wbatch k) s = .next (s.raiseFault .badBlock (encode (.wbatch k)))) ∧
    ∀ s : State, s.Idle →
      (s.profile.waitTime = 0#16 ∨ s.profile.startGap = 0#16 ∨ s.profile.writeGap = 0#16 ∨ s.profile.data0 = 0#16 ∨
        s.profile.data1 = 0#16 ∨ s.profile.program = 0#16) →
      exec .start s = .next (s.raiseFault .badProfile (encode .start))

/-- 60_exceptions.md R188: a step that takes a fault is the acceptance of a CMD write while BUSY = 0; it emits no segment and
no symbol, never sets BUSY, and changes of the command nothing. FAULT_CMD is the word written (10_state.md R32). -/
def Obligations.FaultsArePrecise : Prop :=
  ∀ s t : State, s.halt = false → step s = .next t → t.halt = true →
    ∃ (w : Word) (rest : List Move), s.pending = wr 0 w :: rest ∧ s.cur = none ∧
      t = { s with
        cause := t.cause
        faultCmd := w
        halt := true
        session := false
        act := t.act
        freeCount := t.freeCount
        pending := rest
        events := s.events ++ [.fault t.cause w] ++ (if s.session then [Event.off] else []) }

/-- 60_exceptions.md R187 and 10_state.md R27: without a reset among the moves to come, a halted block stays halted with the
first fault's record, over any number of steps. -/
def Obligations.HaltLastsUntilReset : Prop :=
  ∀ (n : Nat) (s t : State), s.halt = true → .reset ∉ s.pending →
    Host.Core.run Sys2Proof.core n s = .next t → t.halt = true ∧ t.cause = s.cause ∧ t.faultCmd = s.faultCmd

/-- 60_exceptions.md R186: a halted block ignores every host write, answers every host read with the current value, has no
engine step, and drives nothing. -/
def Obligations.HaltedBlockIsInert : Prop :=
  ∀ s : State, s.Inv → s.halt = true →
    (∀ (off : Nat) (w : Word) (rest : List Move), Admitted off 4 → s.pending = wr off w :: rest →
      step s = .next { s with pending := rest }) ∧
    (∀ (off : Nat) (rest : List Move), Admitted off 4 → s.pending = rd off :: rest →
      step s = .next { s with pending := rest, reads := s.reads ++ [windowWord s off] }) ∧
    (∀ rest : List Move, s.pending = .engine :: rest → step s = .next { s with pending := rest }) ∧
    s.cur = none ∧ s.cwEn = false ∧ s.own = false ∧ s.excl = false

/-! ### The engine -/

/-- 42_sequencer.md R160: the engine step emits the whole current segment and moves on; after the last one it ends the
command; without a current segment there is none. -/
def Obligations.EngineStepPlaysTheCurrentSegment : Prop :=
  ∀ (s : State) (rest : List Move), s.pending = .engine :: rest →
    (s.cur = none → step s = .next { s with pending := rest }) ∧
    (∀ c, s.cur = some c → s.queue = [] → step s = .next { s with
      pending := rest
      cur := none
      latency := 0
      events := s.events ++ [.seg c.seg.level c.seg.d c.seg.tag, .ended] }) ∧
    (∀ c g gs, s.cur = some c → s.queue = g :: gs → step s = .next { s with
      pending := rest
      cur := some ⟨g, g.d⟩
      queue := gs
      latency := 0
      events := s.events ++ [.seg c.seg.level c.seg.d c.seg.tag] })

/-- With no move to come the engine goes on by itself (the model's choice, log entry 1): the step is that of the engine
move. -/
def Obligations.EngineRunsWhenNoMoveIsPending : Prop :=
  ∀ s : State, s.pending = [] → step s = step (s.setPending [.engine])

/-- 42_sequencer.md section 6 (R161; the countdown of ACCEPT_LAT is log entry 5's): at tick granularity, the ticks of ACCEPT_LAT and then CNT ticks of the current segment give exactly
the engine step of R160, and before the last of them the segment stays current. -/
def Obligations.TicksGiveTheEngineStep : Prop :=
  ∀ (s : State) (c : Current), s.cur = some c → 1 ≤ c.cnt →
    State.tick^[s.latency + c.cnt] s = s.engineStep ∧
    (∀ k < s.latency + c.cnt, ((State.tick^[k] s).cur.map fun x => x.seg) = some c.seg) ∧
    ∀ rest, s.pending = .tick :: rest → step s = .next (s.setPending rest).tick

/-- 42_sequencer.md section 6 (R162; that `latency` is then 0 is log entry 5's choice): a command with q segments after the current one ends after exactly q + 1 engine steps; the trace gets
all its segments in order and then End, BUSY is 1 until then, and after it BUSY, EXCL, PHASE and POS are 0 and the session
carrier is on. -/
def Obligations.CommandsRunToCompletion : Prop :=
  ∀ (s : State) (c : Current), s.Writing c →
    (State.engineStep^[s.queue.length + 1] s = { s with
      cur := none
      queue := []
      latency := 0
      events := s.events ++ (c.seg :: s.queue).map Segment.event ++ [.ended] }) ∧
    (∀ k ≤ s.queue.length, (State.engineStep^[k] s).busy = true) ∧
    (∀ t, t = State.engineStep^[s.queue.length + 1] s →
      t.busy = false ∧ t.excl = false ∧ t.phaseCode = 0#4 ∧ t.pos = 0#32 ∧ t.cwEn = true ∧ t.control = some .active)

/-- 42_sequencer.md sections 5, 6 and 8: from acceptance to End, a command puts exactly one Begin, the segments of its
symbols under ACT, in order, and one End on the event trace, and its symbols on the symbol trace. -/
def Obligations.CommandsEmitTheirSymbols : Prop :=
  ∀ (i : Instr) (s t : State), s.Active → exec i s = .next t → t.cur ≠ none →
    ∃ es : List Emission, t.symbols = s.symbols ++ es ∧
      State.engineStep^[t.queue.length + 1] t = { s with
        latency := 0
        queue := []
        symbols := s.symbols ++ es
        events := s.events ++ [.began i.opcode] ++ (expand s.act es).map Segment.event ++ [.ended] }

/-- 42_sequencer.md section 6 (R160): while a command runs, no interleaving of host accesses with engine steps changes what is
emitted: the traces, CUR and Q are those of the engine steps alone. -/
def Obligations.InterleavingLeavesTheWaveform : Prop :=
  ∀ (s : State) (c : Current) (ms : List Move), s.Writing c → s.pending = ms →
    (∀ m ∈ ms, m = .engine ∨ (∃ off w, Admitted off 4 ∧ m = wr off w) ∨ ∃ off, Admitted off 4 ∧ m = rd off) →
    ms.count .engine ≤ s.queue.length →
    ∃ t, Host.Core.run Sys2Proof.core ms.length s = .next t ∧
      t.cur = (State.engineStep^[ms.count .engine] s).cur ∧
      t.queue = (State.engineStep^[ms.count .engine] s).queue ∧
      t.events = (State.engineStep^[ms.count .engine] s).events ∧
      t.symbols = s.symbols ∧ t.act = s.act ∧ t.data = s.data ∧ t.password = s.password ∧ t.profile = s.profile ∧
      t.blk = s.blk

/-- 30_encoding.md section 4 (R90): `wait_idle` ends, at the first read of STATUS that shows BUSY = 0, after a bounded number of
steps. How often it polls is the model's choice (log entry 9). -/
def Obligations.WaitIdleEnds : Prop :=
  ∀ (s : State) (c : Current) (rest : List Move), s.Writing c → s.pending = .waitIdle :: rest →
    ∃ t, Host.Core.run Sys2Proof.core (2 * (s.queue.length + 1) + 1) s = .next t ∧
      t.pending = rest ∧ t.busy = false ∧ t.halt = false ∧
      t.reads.length = s.reads.length + s.queue.length + 2 ∧
      (∀ k, s.reads.length ≤ k → k ≤ s.reads.length + s.queue.length → ((t.reads[k]?).getD 0#32).getLsbD 1 = true) ∧
      ((t.reads.getLast?).getD 0#32).getLsbD 1 = false

/-! ### Who reads and writes what -/

/-- Every command answers a next state in every state, and leaves the operand registers, the host's side and, when it is turned
away, all but OVR unchanged (10_state.md sections 6 to 8, 20_memory.md section 5). -/
def Obligations.CommandsLeaveOperandRegisters : Prop :=
  ∀ (i : Instr) (s : State), ∃ t, exec i s = .next t ∧
    t.data = s.data ∧ t.password = s.password ∧ t.profile = s.profile ∧ t.blk = s.blk ∧
    t.pending = s.pending ∧ t.reads = s.reads ∧
    (s.halt = true → t = s) ∧ (s.halt = false → s.cur ≠ none → t = { s with ovr := true })

/-- DATA is read only by WBLK, PASSWORD only by WBLK with PWDEN = 1, BLK0 to BLK7 only by WBATCH (10_state.md sections 6
and 8): another value in them changes nothing else in what any other command does. -/
def Obligations.OperandRegistersReadOnlyByTheirCommands : Prop :=
  (∀ (i : Instr) (s : State) (v : Word), (∀ p n l e, i ≠ .wblk p n l e) →
      ∃ t, exec i s = .next t ∧ exec i { s with data := v } = .next { t with data := v }) ∧
    (∀ (i : Instr) (s : State) (v : Word), (∀ p n l, i ≠ .wblk p n l true) →
      ∃ t, exec i s = .next t ∧ exec i { s with password := v } = .next { t with password := v }) ∧
    ∀ (i : Instr) (s : State) (v : Vector Word 8), (∀ k, i ≠ .wbatch k) →
      ∃ t, exec i s = .next t ∧ exec i { s with blk := v } = .next { t with blk := v }

/-- Only START reads the profile registers: a running session keeps the profile latched at its START (20_memory.md section 4,
10_state.md section 11). -/
def Obligations.ProfileRegistersReadOnlyByStart : Prop :=
  ∀ (i : Instr) (s : State) (p : Profile), i ≠ .start →
    ∃ t, exec i s = .next t ∧ exec i { s with profile := p } = .next { t with profile := p }

/-- 95_test_vectors.md V7 (from 42_sequencer.md sections 4 to 6): what a command emits depends on nothing but the command, ACT and
its operand registers: two sessions that agree in these emit the same segments and symbols. -/
def Obligations.WaveformDependsOnlyOnOperands : Prop :=
  ∀ (i : Instr) (s s' t t' : State), s.Active → s'.Active → s.act = s'.act → s.data = s'.data →
    s.password = s'.password → s.blk = s'.blk → exec i s = .next t → exec i s' = .next t' → t.cur ≠ none →
    t.cur = t'.cur ∧ t.queue = t'.queue ∧
      ∃ es, t.symbols = s.symbols ++ es ∧ t'.symbols = s'.symbols ++ es

/-- 10_state.md R23: a session opens only at an accepted START, and closes only at an accepted STOP, a fault halt or a reset. -/
def Obligations.SessionChangesOnlyAtItsEvents : Prop :=
  ∀ s t : State, step s = .next t →
    (s.session = false → t.session = true →
      s.Accepting ∧ s.profile.allNonzero = true ∧ ∃ rest, s.pending = wr 0 (encode .start) :: rest) ∧
    (s.session = true → t.session = false →
      (s.Accepting ∧ ∃ rest, s.pending = wr 0 (encode .stop) :: rest) ∨ (s.halt = false ∧ t.halt = true) ∨
        ∃ rest, s.pending = .reset :: rest)

/-! ### What the host and the pins see -/

/-- 10_state.md R25, R29 and R30, with the places of R23 to R28: the bits of the STATUS word in every state, with the phase
codes. -/
def Obligations.StatusWordBits : Prop :=
  ∀ s : State,
    s.status.getLsbD 0 = s.session ∧ s.status.getLsbD 1 = s.cur.isSome ∧ s.status.getLsbD 2 = s.status.getLsbD 1 ∧
    s.excl = s.busy ∧ s.status.getLsbD 3 = s.cwEn ∧ s.status.getLsbD 4 = s.halt ∧ s.status.getLsbD 5 = s.ovr ∧
    s.status.getLsbD 6 = false ∧ s.status.getLsbD 7 = false ∧ s.status.extractLsb' 8 4 = s.phaseCode ∧
    s.status.extractLsb' 12 20 = 0#20 ∧
    (s.cur = none → s.status.extractLsb' 8 4 = 0#4) ∧
    ∀ c, s.cur = some c →
      ∀ pk ∈ [(Phase.preWait, 1#4), (.sof, 2#4), (.opcode, 3#4), (.password, 4#4), (.lock, 5#4), (.data, 6#4), (.addr, 7#4),
          (.program, 8#4), (.postWait, 9#4), (.reset, 10#4), (.primBit, 11#4), (.primSgap, 12#4), (.finalReset, 13#4)],
        c.seg.tag.phase = pk.1 → s.status.extractLsb' 8 4 = pk.2

/-- 10_state.md R31, with the codes of 60_exceptions.md section 1: FAULT at offset 0x08 shows the code of CAUSE in bits 3:0 and 0
above, reads 0 when no fault has been taken, and CAUSE changes only by fault entry and by reset. -/
def Obligations.FaultRegisterShowsTheCause : Prop :=
  (∀ s : State, windowWord s 0x08 = s.faultWord ∧ s.faultWord.extractLsb' 4 28 = 0#28 ∧
    ∀ ck ∈ [(Cause.noFault, 0#4), (.illegalCmd, 1#4), (.noSession, 2#4), (.sessionActive, 3#4), (.badPage, 4#4),
        (.badBlock, 5#4), (.badProfile, 6#4)],
      s.cause = ck.1 → s.faultWord.extractLsb' 0 4 = ck.2) ∧
    (∀ s : State, s.Inv → s.halt = false → s.faultWord = 0#32) ∧
    ∀ s t : State, step s = .next t → t.cause ≠ s.cause →
      (∃ w rest, s.pending = wr 0 w :: rest ∧ t = (s.setPending rest).raiseFault t.cause w) ∨
        ∃ rest, s.pending = .reset :: rest

/-- 10_state.md R33: POS shows the tag of the current segment, 0 when there is none, and BITIDX and BLKIDX stay in their
ranges. -/
def Obligations.PosShowsTheCurrentTag : Prop :=
  ∀ s : State, s.Inv →
    (s.cur = none → s.pos = 0#32) ∧
    (∀ c, s.cur = some c → s.pos.extractLsb' 0 6 = c.seg.tag.bitIdx ∧ s.pos.extractLsb' 8 4 = c.seg.tag.blkIdx) ∧
    s.pos.extractLsb' 6 2 = 0#2 ∧ s.pos.extractLsb' 12 20 = 0#20 ∧
    (s.pos.extractLsb' 0 6).toNat ≤ 31 ∧ (s.pos.extractLsb' 8 4).toNat ≤ 8

/-- 10_state.md R45: the output ports in every state. -/
def Obligations.OutputPortsFollowTheState : Prop :=
  ∀ s : State,
    (s.cwEn = true ↔ s.session = true ∧ ∀ c, s.cur = some c → c.seg.level = .cw) ∧
    (s.cwEn = true → s.carrierOut = .square 125000 50) ∧ (s.cwEn = false → s.carrierOut = .floating) ∧
    s.pinBind = s.session ∧ s.pullEn = false ∧ (s.excl = true ↔ s.cur ≠ none) ∧ s.own = s.session

/-- 40_pulse_gap.md section 1 (R105): merging the pieces of an envelope leaves no two adjacent pieces at one level, and each
merged piece stands for a run of the pieces, in order: all at its level, of its duration in sum, exact just when all are. So
the level at every instant and the total duration stay. -/
def Obligations.MergedEnvelopeAlternates : Prop :=
  ∀ ps : List Piece,
    ((mergePieces ps).map fun p => p.d).sum = (ps.map fun p => p.d).sum ∧
    (mergePieces ps).IsChain (fun p q => p.carrier ≠ q.carrier) ∧
    ∃ gs : List (List Piece), gs.flatten = ps ∧
      List.Forall₂ (fun g q => g ≠ [] ∧ (∀ p ∈ g, p.carrier = q.carrier) ∧ q.d = (g.map fun p => p.d).sum ∧
        (q.exact = true ↔ ∀ p ∈ g, p.exact = true)) gs (mergePieces ps)

/-- 42_sequencer.md section 8 (R165): the envelope read from the event trace, one event more at a time: off before everything,
on for an undetermined time from On and from End, off from Off, and a Seg's level for exactly its duration. So a command
played to its end extends the envelope by exactly the levels and durations of its symbols' segments under ACT, and then the
idle carrier (R164). What it shows after a Seg whose command a reset cuts is the model's choice (log entry 15). -/
def Obligations.EnvelopeReadsTheTrace : Prop :=
  envelope [] = [⟨false, 0, false⟩] ∧
    (∀ es : List Event,
      envelope (es ++ [.on]) = mergePieces (envelope es ++ [⟨true, 0, false⟩]) ∧
      envelope (es ++ [.ended]) = mergePieces (envelope es ++ [⟨true, 0, false⟩]) ∧
      envelope (es ++ [.off]) = mergePieces (envelope es ++ [⟨false, 0, false⟩]) ∧
      (∀ d tag, envelope (es ++ [.seg .cw d tag]) = mergePieces (envelope es ++ [⟨true, d, true⟩])) ∧
      (∀ d tag, envelope (es ++ [.seg .gap d tag]) = mergePieces (envelope es ++ [⟨false, d, true⟩])) ∧
      (∀ op, envelope (es ++ [.began op]) = envelope es) ∧
      (∀ c w, envelope (es ++ [.fault c w]) = envelope es) ∧
      envelope (es ++ [.reset]) = envelope es) ∧
    ∀ (i : Instr) (s t : State), s.Active → exec i s = .next t → t.cur ≠ none →
      ∃ es : List Emission, t.symbols = s.symbols ++ es ∧
        envelope (State.engineStep^[t.queue.length + 1] t).events =
          mergePieces (envelope s.events ++ ((expand s.act es).map fun g => ⟨g.level == .cw, g.d, true⟩) ++
            [⟨true, 0, false⟩])

/-! ### The invariant -/

/-- The invariant holds at reset. -/
def Obligations.ResetMeetsTheInvariant : Prop := State.reset.Inv

/-- Every step keeps the invariant: BUSY only in a session (10_state.md R24), an empty queue when idle and CNT in its range
(R44), sound segments of nonzero duration (40_pulse_gap.md R105), tags in range (10_state.md R33), no session while halted,
and a fault record exactly when halted (R31, R32). -/
def Obligations.StepKeepsTheInvariant : Prop :=
  ∀ s t : State, s.Inv → step s = .next t → t.Inv

/-- 42_sequencer.md section 1 (R150): in every state that meets the invariant the block is in one of the four control
states. -/
def Obligations.ControlStateIsOneOfFour : Prop :=
  ∀ s : State, s.Inv →
    s.control = some .idle ∨ s.control = some .active ∨ s.control = some .writing ∨ s.control = some .halted

/-- 42_sequencer.md section 1 (R150): the control states a step can reach from each one. -/
def Obligations.ControlStateTransitions : Prop :=
  ∀ s t : State, s.Inv → step s = .next t → (∀ rest, s.pending ≠ .reset :: rest) →
    (s.control = some .idle → t.control = some .idle ∨ t.control = some .active ∨ t.control = some .halted) ∧
    (s.control = some .active → t.control = some .active ∨ t.control = some .idle ∨ t.control = some .writing ∨
      t.control = some .halted) ∧
    (s.control = some .writing → t.control = some .writing ∨ t.control = some .active) ∧
    (s.control = some .halted → t.control = some .halted)
end

