-- ==== Sys2Proof/Laws/Observe.lean ====
section
/-! SUPPORT. What merging an envelope can do, said once: the merge of a list can be taken piece by piece. -/

namespace Sys2Proof.Machine

@[simp] theorem mergePieces_nil : mergePieces [] = [] := rfl

@[simp] theorem mergePieces_cons (p : Piece) (ps : List Piece) :
    mergePieces (p :: ps) = mergePiece p (mergePieces ps) := rfl

@[simp] theorem mergePiece_nil (p : Piece) : mergePiece p [] = [p] := rfl

theorem mergePiece_same {p q : Piece} (h : p.carrier = q.carrier) (ps : List Piece) :
    mergePiece p (q :: ps) = ⟨p.carrier, p.d + q.d, p.exact && q.exact⟩ :: ps := by
  simp [mergePiece, h]

theorem mergePiece_other {p q : Piece} (h : p.carrier ≠ q.carrier) (ps : List Piece) :
    mergePiece p (q :: ps) = p :: q :: ps := by
  simp [mergePiece, h]

/-- Two pieces at one level put before an envelope one after the other are their merged piece put before it. -/
theorem mergePiece_mergePiece {p q : Piece} (h : p.carrier = q.carrier) (ps : List Piece) :
    mergePiece p (mergePiece q ps) = mergePiece ⟨p.carrier, p.d + q.d, p.exact && q.exact⟩ ps := by
  cases ps with
  | nil => exact mergePiece_same h []
  | cons r ps =>
    by_cases hr : q.carrier = r.carrier
    · simp [mergePiece, h, hr, Nat.add_assoc, Bool.and_assoc]
    · rw [mergePiece_other hr, mergePiece_same h, mergePiece_other (p := ⟨_, _, _⟩) (h ▸ hr)]

/-- Putting a merged front before an envelope is putting its pieces before it. -/
theorem foldr_mergePiece (p : Piece) (qs acc : List Piece) :
    (mergePiece p qs).foldr mergePiece acc = mergePiece p (qs.foldr mergePiece acc) := by
  cases qs with
  | nil => rfl
  | cons q qs =>
    by_cases h : p.carrier = q.carrier
    · rw [mergePiece_same h, List.foldr_cons, List.foldr_cons, mergePiece_mergePiece h]
    · rw [mergePiece_other h, List.foldr_cons]

/-- What stands in front may be merged first. -/
theorem mergePieces_append (ps qs : List Piece) : mergePieces (ps ++ qs) = mergePieces (mergePieces ps ++ qs) := by
  induction ps with
  | nil => rfl
  | cons p ps ih =>
    rw [List.cons_append, mergePieces_cons, ih, mergePieces_cons]
    simp only [mergePieces, List.foldr_append, foldr_mergePiece]

end Sys2Proof.Machine
end

