-- ==== Sys2Proof/Laws/State.lean ====
section
/-! SUPPORT. One lemma per field per named update of State, and the fields of the shared operations on it. -/

namespace Sys2Proof.Machine

open Sys2Proof

variable (s : State)

/-! ### addEvent -/

@[simp] theorem State.addEvent_session (e : Event) : (s.addEvent e).session = s.session := rfl
@[simp] theorem State.addEvent_halt (e : Event) : (s.addEvent e).halt = s.halt := rfl
@[simp] theorem State.addEvent_ovr (e : Event) : (s.addEvent e).ovr = s.ovr := rfl
@[simp] theorem State.addEvent_cause (e : Event) : (s.addEvent e).cause = s.cause := rfl
@[simp] theorem State.addEvent_faultCmd (e : Event) : (s.addEvent e).faultCmd = s.faultCmd := rfl
@[simp] theorem State.addEvent_data (e : Event) : (s.addEvent e).data = s.data := rfl
@[simp] theorem State.addEvent_password (e : Event) : (s.addEvent e).password = s.password := rfl
@[simp] theorem State.addEvent_profile (e : Event) : (s.addEvent e).profile = s.profile := rfl
@[simp] theorem State.addEvent_blk (e : Event) : (s.addEvent e).blk = s.blk := rfl
@[simp] theorem State.addEvent_act (e : Event) : (s.addEvent e).act = s.act := rfl
@[simp] theorem State.addEvent_cur (e : Event) : (s.addEvent e).cur = s.cur := rfl
@[simp] theorem State.addEvent_queue (e : Event) : (s.addEvent e).queue = s.queue := rfl
@[simp] theorem State.addEvent_latency (e : Event) : (s.addEvent e).latency = s.latency := rfl
@[simp] theorem State.addEvent_events (e : Event) : (s.addEvent e).events = s.events ++ [e] := rfl
@[simp] theorem State.addEvent_symbols (e : Event) : (s.addEvent e).symbols = s.symbols := rfl
@[simp] theorem State.addEvent_pending (e : Event) : (s.addEvent e).pending = s.pending := rfl
@[simp] theorem State.addEvent_reads (e : Event) : (s.addEvent e).reads = s.reads := rfl
@[simp] theorem State.addEvent_freeCount (e : Event) : (s.addEvent e).freeCount = s.freeCount := rfl

/-! ### addSymbols -/

@[simp] theorem State.addSymbols_session (es : List Emission) : (s.addSymbols es).session = s.session := rfl
@[simp] theorem State.addSymbols_halt (es : List Emission) : (s.addSymbols es).halt = s.halt := rfl
@[simp] theorem State.addSymbols_ovr (es : List Emission) : (s.addSymbols es).ovr = s.ovr := rfl
@[simp] theorem State.addSymbols_cause (es : List Emission) : (s.addSymbols es).cause = s.cause := rfl
@[simp] theorem State.addSymbols_faultCmd (es : List Emission) : (s.addSymbols es).faultCmd = s.faultCmd := rfl
@[simp] theorem State.addSymbols_data (es : List Emission) : (s.addSymbols es).data = s.data := rfl
@[simp] theorem State.addSymbols_password (es : List Emission) : (s.addSymbols es).password = s.password := rfl
@[simp] theorem State.addSymbols_profile (es : List Emission) : (s.addSymbols es).profile = s.profile := rfl
@[simp] theorem State.addSymbols_blk (es : List Emission) : (s.addSymbols es).blk = s.blk := rfl
@[simp] theorem State.addSymbols_act (es : List Emission) : (s.addSymbols es).act = s.act := rfl
@[simp] theorem State.addSymbols_cur (es : List Emission) : (s.addSymbols es).cur = s.cur := rfl
@[simp] theorem State.addSymbols_queue (es : List Emission) : (s.addSymbols es).queue = s.queue := rfl
@[simp] theorem State.addSymbols_latency (es : List Emission) : (s.addSymbols es).latency = s.latency := rfl
@[simp] theorem State.addSymbols_events (es : List Emission) : (s.addSymbols es).events = s.events := rfl
@[simp] theorem State.addSymbols_symbols (es : List Emission) : (s.addSymbols es).symbols = s.symbols ++ es := rfl
@[simp] theorem State.addSymbols_pending (es : List Emission) : (s.addSymbols es).pending = s.pending := rfl
@[simp] theorem State.addSymbols_reads (es : List Emission) : (s.addSymbols es).reads = s.reads := rfl
@[simp] theorem State.addSymbols_freeCount (es : List Emission) : (s.addSymbols es).freeCount = s.freeCount := rfl

/-! ### addRead -/

@[simp] theorem State.addRead_session (v : Word) : (s.addRead v).session = s.session := rfl
@[simp] theorem State.addRead_halt (v : Word) : (s.addRead v).halt = s.halt := rfl
@[simp] theorem State.addRead_ovr (v : Word) : (s.addRead v).ovr = s.ovr := rfl
@[simp] theorem State.addRead_cause (v : Word) : (s.addRead v).cause = s.cause := rfl
@[simp] theorem State.addRead_faultCmd (v : Word) : (s.addRead v).faultCmd = s.faultCmd := rfl
@[simp] theorem State.addRead_data (v : Word) : (s.addRead v).data = s.data := rfl
@[simp] theorem State.addRead_password (v : Word) : (s.addRead v).password = s.password := rfl
@[simp] theorem State.addRead_profile (v : Word) : (s.addRead v).profile = s.profile := rfl
@[simp] theorem State.addRead_blk (v : Word) : (s.addRead v).blk = s.blk := rfl
@[simp] theorem State.addRead_act (v : Word) : (s.addRead v).act = s.act := rfl
@[simp] theorem State.addRead_cur (v : Word) : (s.addRead v).cur = s.cur := rfl
@[simp] theorem State.addRead_queue (v : Word) : (s.addRead v).queue = s.queue := rfl
@[simp] theorem State.addRead_latency (v : Word) : (s.addRead v).latency = s.latency := rfl
@[simp] theorem State.addRead_events (v : Word) : (s.addRead v).events = s.events := rfl
@[simp] theorem State.addRead_symbols (v : Word) : (s.addRead v).symbols = s.symbols := rfl
@[simp] theorem State.addRead_pending (v : Word) : (s.addRead v).pending = s.pending := rfl
@[simp] theorem State.addRead_reads (v : Word) : (s.addRead v).reads = s.reads ++ [v] := rfl
@[simp] theorem State.addRead_freeCount (v : Word) : (s.addRead v).freeCount = s.freeCount := rfl

/-! ### setPending -/

@[simp] theorem State.setPending_session (ms : List Move) : (s.setPending ms).session = s.session := rfl
@[simp] theorem State.setPending_halt (ms : List Move) : (s.setPending ms).halt = s.halt := rfl
@[simp] theorem State.setPending_ovr (ms : List Move) : (s.setPending ms).ovr = s.ovr := rfl
@[simp] theorem State.setPending_cause (ms : List Move) : (s.setPending ms).cause = s.cause := rfl
@[simp] theorem State.setPending_faultCmd (ms : List Move) : (s.setPending ms).faultCmd = s.faultCmd := rfl
@[simp] theorem State.setPending_data (ms : List Move) : (s.setPending ms).data = s.data := rfl
@[simp] theorem State.setPending_password (ms : List Move) : (s.setPending ms).password = s.password := rfl
@[simp] theorem State.setPending_profile (ms : List Move) : (s.setPending ms).profile = s.profile := rfl
@[simp] theorem State.setPending_blk (ms : List Move) : (s.setPending ms).blk = s.blk := rfl
@[simp] theorem State.setPending_act (ms : List Move) : (s.setPending ms).act = s.act := rfl
@[simp] theorem State.setPending_cur (ms : List Move) : (s.setPending ms).cur = s.cur := rfl
@[simp] theorem State.setPending_queue (ms : List Move) : (s.setPending ms).queue = s.queue := rfl
@[simp] theorem State.setPending_latency (ms : List Move) : (s.setPending ms).latency = s.latency := rfl
@[simp] theorem State.setPending_events (ms : List Move) : (s.setPending ms).events = s.events := rfl
@[simp] theorem State.setPending_symbols (ms : List Move) : (s.setPending ms).symbols = s.symbols := rfl
@[simp] theorem State.setPending_pending (ms : List Move) : (s.setPending ms).pending = ms := rfl
@[simp] theorem State.setPending_reads (ms : List Move) : (s.setPending ms).reads = s.reads := rfl
@[simp] theorem State.setPending_freeCount (ms : List Move) : (s.setPending ms).freeCount = s.freeCount := rfl

/-! ### setOvr -/

@[simp] theorem State.setOvr_session : s.setOvr.session = s.session := rfl
@[simp] theorem State.setOvr_halt : s.setOvr.halt = s.halt := rfl
@[simp] theorem State.setOvr_ovr : s.setOvr.ovr = true := rfl
@[simp] theorem State.setOvr_cause : s.setOvr.cause = s.cause := rfl
@[simp] theorem State.setOvr_faultCmd : s.setOvr.faultCmd = s.faultCmd := rfl
@[simp] theorem State.setOvr_data : s.setOvr.data = s.data := rfl
@[simp] theorem State.setOvr_password : s.setOvr.password = s.password := rfl
@[simp] theorem State.setOvr_profile : s.setOvr.profile = s.profile := rfl
@[simp] theorem State.setOvr_blk : s.setOvr.blk = s.blk := rfl
@[simp] theorem State.setOvr_act : s.setOvr.act = s.act := rfl
@[simp] theorem State.setOvr_cur : s.setOvr.cur = s.cur := rfl
@[simp] theorem State.setOvr_queue : s.setOvr.queue = s.queue := rfl
@[simp] theorem State.setOvr_latency : s.setOvr.latency = s.latency := rfl
@[simp] theorem State.setOvr_events : s.setOvr.events = s.events := rfl
@[simp] theorem State.setOvr_symbols : s.setOvr.symbols = s.symbols := rfl
@[simp] theorem State.setOvr_pending : s.setOvr.pending = s.pending := rfl
@[simp] theorem State.setOvr_reads : s.setOvr.reads = s.reads := rfl
@[simp] theorem State.setOvr_freeCount : s.setOvr.freeCount = s.freeCount := rfl

/-! ### load -/

@[simp] theorem State.load_session (gs : List Segment) : (s.load gs).session = s.session := rfl
@[simp] theorem State.load_halt (gs : List Segment) : (s.load gs).halt = s.halt := rfl
@[simp] theorem State.load_ovr (gs : List Segment) : (s.load gs).ovr = s.ovr := rfl
@[simp] theorem State.load_cause (gs : List Segment) : (s.load gs).cause = s.cause := rfl
@[simp] theorem State.load_faultCmd (gs : List Segment) : (s.load gs).faultCmd = s.faultCmd := rfl
@[simp] theorem State.load_data (gs : List Segment) : (s.load gs).data = s.data := rfl
@[simp] theorem State.load_password (gs : List Segment) : (s.load gs).password = s.password := rfl
@[simp] theorem State.load_profile (gs : List Segment) : (s.load gs).profile = s.profile := rfl
@[simp] theorem State.load_blk (gs : List Segment) : (s.load gs).blk = s.blk := rfl
@[simp] theorem State.load_act (gs : List Segment) : (s.load gs).act = s.act := rfl
@[simp] theorem State.load_cur (gs : List Segment) : (s.load gs).cur = gs.head?.map fun g => ⟨g, g.d⟩ := rfl
@[simp] theorem State.load_queue (gs : List Segment) : (s.load gs).queue = gs.tail := rfl
@[simp] theorem State.load_latency (gs : List Segment) : (s.load gs).latency = s.latency := rfl
@[simp] theorem State.load_events (gs : List Segment) : (s.load gs).events = s.events := rfl
@[simp] theorem State.load_symbols (gs : List Segment) : (s.load gs).symbols = s.symbols := rfl
@[simp] theorem State.load_pending (gs : List Segment) : (s.load gs).pending = s.pending := rfl
@[simp] theorem State.load_reads (gs : List Segment) : (s.load gs).reads = s.reads := rfl
@[simp] theorem State.load_freeCount (gs : List Segment) : (s.load gs).freeCount = s.freeCount := rfl

/-! ### forgetAct -/

@[simp] theorem State.forgetAct_session : s.forgetAct.session = s.session := rfl
@[simp] theorem State.forgetAct_halt : s.forgetAct.halt = s.halt := rfl
@[simp] theorem State.forgetAct_ovr : s.forgetAct.ovr = s.ovr := rfl
@[simp] theorem State.forgetAct_cause : s.forgetAct.cause = s.cause := rfl
@[simp] theorem State.forgetAct_faultCmd : s.forgetAct.faultCmd = s.faultCmd := rfl
@[simp] theorem State.forgetAct_data : s.forgetAct.data = s.data := rfl
@[simp] theorem State.forgetAct_password : s.forgetAct.password = s.password := rfl
@[simp] theorem State.forgetAct_profile : s.forgetAct.profile = s.profile := rfl
@[simp] theorem State.forgetAct_blk : s.forgetAct.blk = s.blk := rfl
@[simp] theorem State.forgetAct_cur : s.forgetAct.cur = s.cur := rfl
@[simp] theorem State.forgetAct_queue : s.forgetAct.queue = s.queue := rfl
@[simp] theorem State.forgetAct_latency : s.forgetAct.latency = s.latency := rfl
@[simp] theorem State.forgetAct_events : s.forgetAct.events = s.events := rfl
@[simp] theorem State.forgetAct_symbols : s.forgetAct.symbols = s.symbols := rfl
@[simp] theorem State.forgetAct_pending : s.forgetAct.pending = s.pending := rfl
@[simp] theorem State.forgetAct_reads : s.forgetAct.reads = s.reads := rfl
@[simp] theorem State.forgetAct_freeCount : s.forgetAct.freeCount = s.freeCount + 6 := rfl

/-! ### openSession -/

@[simp] theorem State.openSession_session : s.openSession.session = true := rfl
@[simp] theorem State.openSession_halt : s.openSession.halt = s.halt := rfl
@[simp] theorem State.openSession_ovr : s.openSession.ovr = s.ovr := rfl
@[simp] theorem State.openSession_cause : s.openSession.cause = s.cause := rfl
@[simp] theorem State.openSession_faultCmd : s.openSession.faultCmd = s.faultCmd := rfl
@[simp] theorem State.openSession_data : s.openSession.data = s.data := rfl
@[simp] theorem State.openSession_password : s.openSession.password = s.password := rfl
@[simp] theorem State.openSession_profile : s.openSession.profile = s.profile := rfl
@[simp] theorem State.openSession_blk : s.openSession.blk = s.blk := rfl
@[simp] theorem State.openSession_act : s.openSession.act = s.profile := rfl
@[simp] theorem State.openSession_cur : s.openSession.cur = s.cur := rfl
@[simp] theorem State.openSession_queue : s.openSession.queue = s.queue := rfl
@[simp] theorem State.openSession_latency : s.openSession.latency = s.latency := rfl
@[simp] theorem State.openSession_events : s.openSession.events = s.events ++ [.on] := rfl
@[simp] theorem State.openSession_symbols : s.openSession.symbols = s.symbols := rfl
@[simp] theorem State.openSession_pending : s.openSession.pending = s.pending := rfl
@[simp] theorem State.openSession_reads : s.openSession.reads = s.reads := rfl
@[simp] theorem State.openSession_freeCount : s.openSession.freeCount = s.freeCount := rfl

/-! ### closeSession -/

@[simp] theorem State.closeSession_session : s.closeSession.session = false := by
  unfold State.closeSession; split <;> simp_all
@[simp] theorem State.closeSession_halt : s.closeSession.halt = s.halt := by
  unfold State.closeSession; split <;> simp_all
@[simp] theorem State.closeSession_ovr : s.closeSession.ovr = s.ovr := by
  unfold State.closeSession; split <;> simp_all
@[simp] theorem State.closeSession_cause : s.closeSession.cause = s.cause := by
  unfold State.closeSession; split <;> simp_all
@[simp] theorem State.closeSession_faultCmd : s.closeSession.faultCmd = s.faultCmd := by
  unfold State.closeSession; split <;> simp_all
@[simp] theorem State.closeSession_data : s.closeSession.data = s.data := by
  unfold State.closeSession; split <;> simp_all
@[simp] theorem State.closeSession_password : s.closeSession.password = s.password := by
  unfold State.closeSession; split <;> simp_all
@[simp] theorem State.closeSession_profile : s.closeSession.profile = s.profile := by
  unfold State.closeSession; split <;> simp_all
@[simp] theorem State.closeSession_blk : s.closeSession.blk = s.blk := by
  unfold State.closeSession; split <;> simp_all
@[simp] theorem State.closeSession_cur : s.closeSession.cur = s.cur := by
  unfold State.closeSession; split <;> simp_all
@[simp] theorem State.closeSession_queue : s.closeSession.queue = s.queue := by
  unfold State.closeSession; split <;> simp_all
@[simp] theorem State.closeSession_latency : s.closeSession.latency = s.latency := by
  unfold State.closeSession; split <;> simp_all
@[simp] theorem State.closeSession_events : s.closeSession.events = s.events ++ if s.session then [.off] else [] := by
  unfold State.closeSession; split <;> simp_all
@[simp] theorem State.closeSession_symbols : s.closeSession.symbols = s.symbols := by
  unfold State.closeSession; split <;> simp_all
@[simp] theorem State.closeSession_pending : s.closeSession.pending = s.pending := by
  unfold State.closeSession; split <;> simp_all
@[simp] theorem State.closeSession_reads : s.closeSession.reads = s.reads := by
  unfold State.closeSession; split <;> simp_all

theorem State.closeSession_of_closed (h : s.session = false) : s.closeSession = s := by
  simp [State.closeSession, h]

/-! ### raiseFault -/

@[simp] theorem State.raiseFault_session (c : Cause) (w : Word) : (s.raiseFault c w).session = false := by
  simp [State.raiseFault]
@[simp] theorem State.raiseFault_halt (c : Cause) (w : Word) : (s.raiseFault c w).halt = true := by
  simp [State.raiseFault]
@[simp] theorem State.raiseFault_ovr (c : Cause) (w : Word) : (s.raiseFault c w).ovr = s.ovr := by
  simp [State.raiseFault]
@[simp] theorem State.raiseFault_cause (c : Cause) (w : Word) : (s.raiseFault c w).cause = c := by
  simp [State.raiseFault]
@[simp] theorem State.raiseFault_faultCmd (c : Cause) (w : Word) : (s.raiseFault c w).faultCmd = w := by
  simp [State.raiseFault]
@[simp] theorem State.raiseFault_data (c : Cause) (w : Word) : (s.raiseFault c w).data = s.data := by
  simp [State.raiseFault]
@[simp] theorem State.raiseFault_password (c : Cause) (w : Word) : (s.raiseFault c w).password = s.password := by
  simp [State.raiseFault]
@[simp] theorem State.raiseFault_profile (c : Cause) (w : Word) : (s.raiseFault c w).profile = s.profile := by
  simp [State.raiseFault]
@[simp] theorem State.raiseFault_blk (c : Cause) (w : Word) : (s.raiseFault c w).blk = s.blk := by
  simp [State.raiseFault]
@[simp] theorem State.raiseFault_cur (c : Cause) (w : Word) : (s.raiseFault c w).cur = s.cur := by
  simp [State.raiseFault]
@[simp] theorem State.raiseFault_queue (c : Cause) (w : Word) : (s.raiseFault c w).queue = s.queue := by
  simp [State.raiseFault]
@[simp] theorem State.raiseFault_latency (c : Cause) (w : Word) : (s.raiseFault c w).latency = s.latency := by
  simp [State.raiseFault]
@[simp] theorem State.raiseFault_events (c : Cause) (w : Word) : (s.raiseFault c w).events = s.events ++ [.fault c w] ++ if s.session then [.off] else [] := by
  cases h : s.session <;> simp [State.raiseFault, h]
@[simp] theorem State.raiseFault_symbols (c : Cause) (w : Word) : (s.raiseFault c w).symbols = s.symbols := by
  simp [State.raiseFault]
@[simp] theorem State.raiseFault_pending (c : Cause) (w : Word) : (s.raiseFault c w).pending = s.pending := by
  simp [State.raiseFault]
@[simp] theorem State.raiseFault_reads (c : Cause) (w : Word) : (s.raiseFault c w).reads = s.reads := by
  simp [State.raiseFault]

/-! ### storeReg: a host write that is not to CMD changes only the four operand groups -/

@[simp] theorem State.storeReg_session (r : Reg) (w : Word) : (s.storeReg r w).session = s.session := by
  cases r <;> rfl
@[simp] theorem State.storeReg_halt (r : Reg) (w : Word) : (s.storeReg r w).halt = s.halt := by
  cases r <;> rfl
@[simp] theorem State.storeReg_ovr (r : Reg) (w : Word) : (s.storeReg r w).ovr = s.ovr := by
  cases r <;> rfl
@[simp] theorem State.storeReg_cause (r : Reg) (w : Word) : (s.storeReg r w).cause = s.cause := by
  cases r <;> rfl
@[simp] theorem State.storeReg_faultCmd (r : Reg) (w : Word) : (s.storeReg r w).faultCmd = s.faultCmd := by
  cases r <;> rfl
@[simp] theorem State.storeReg_act (r : Reg) (w : Word) : (s.storeReg r w).act = s.act := by
  cases r <;> rfl
@[simp] theorem State.storeReg_cur (r : Reg) (w : Word) : (s.storeReg r w).cur = s.cur := by
  cases r <;> rfl
@[simp] theorem State.storeReg_queue (r : Reg) (w : Word) : (s.storeReg r w).queue = s.queue := by
  cases r <;> rfl
@[simp] theorem State.storeReg_latency (r : Reg) (w : Word) : (s.storeReg r w).latency = s.latency := by
  cases r <;> rfl
@[simp] theorem State.storeReg_events (r : Reg) (w : Word) : (s.storeReg r w).events = s.events := by
  cases r <;> rfl
@[simp] theorem State.storeReg_symbols (r : Reg) (w : Word) : (s.storeReg r w).symbols = s.symbols := by
  cases r <;> rfl
@[simp] theorem State.storeReg_pending (r : Reg) (w : Word) : (s.storeReg r w).pending = s.pending := by
  cases r <;> rfl
@[simp] theorem State.storeReg_reads (r : Reg) (w : Word) : (s.storeReg r w).reads = s.reads := by
  cases r <;> rfl
@[simp] theorem State.storeReg_freeCount (r : Reg) (w : Word) : (s.storeReg r w).freeCount = s.freeCount := by
  cases r <;> rfl

/-! ### beginEmission -/

@[simp] theorem State.beginEmission_session (op : BitVec 4) (es : List Emission) :
    (s.beginEmission op es).session = s.session := rfl
@[simp] theorem State.beginEmission_halt (op : BitVec 4) (es : List Emission) :
    (s.beginEmission op es).halt = s.halt := rfl
@[simp] theorem State.beginEmission_ovr (op : BitVec 4) (es : List Emission) :
    (s.beginEmission op es).ovr = s.ovr := rfl
@[simp] theorem State.beginEmission_cause (op : BitVec 4) (es : List Emission) :
    (s.beginEmission op es).cause = s.cause := rfl
@[simp] theorem State.beginEmission_faultCmd (op : BitVec 4) (es : List Emission) :
    (s.beginEmission op es).faultCmd = s.faultCmd := rfl
@[simp] theorem State.beginEmission_data (op : BitVec 4) (es : List Emission) :
    (s.beginEmission op es).data = s.data := rfl
@[simp] theorem State.beginEmission_password (op : BitVec 4) (es : List Emission) :
    (s.beginEmission op es).password = s.password := rfl
@[simp] theorem State.beginEmission_profile (op : BitVec 4) (es : List Emission) :
    (s.beginEmission op es).profile = s.profile := rfl
@[simp] theorem State.beginEmission_blk (op : BitVec 4) (es : List Emission) :
    (s.beginEmission op es).blk = s.blk := rfl
@[simp] theorem State.beginEmission_act (op : BitVec 4) (es : List Emission) :
    (s.beginEmission op es).act = s.act := rfl
@[simp] theorem State.beginEmission_cur (op : BitVec 4) (es : List Emission) :
    (s.beginEmission op es).cur = (expand s.act es).head?.map fun g => ⟨g, g.d⟩ := rfl
@[simp] theorem State.beginEmission_queue (op : BitVec 4) (es : List Emission) :
    (s.beginEmission op es).queue = (expand s.act es).tail := rfl
@[simp] theorem State.beginEmission_latency (op : BitVec 4) (es : List Emission) :
    (s.beginEmission op es).latency = Config.acceptLat := rfl
@[simp] theorem State.beginEmission_events (op : BitVec 4) (es : List Emission) :
    (s.beginEmission op es).events = s.events ++ [.began op] := rfl
@[simp] theorem State.beginEmission_symbols (op : BitVec 4) (es : List Emission) :
    (s.beginEmission op es).symbols = s.symbols ++ es := rfl
@[simp] theorem State.beginEmission_pending (op : BitVec 4) (es : List Emission) :
    (s.beginEmission op es).pending = s.pending := rfl
@[simp] theorem State.beginEmission_reads (op : BitVec 4) (es : List Emission) :
    (s.beginEmission op es).reads = s.reads := rfl
@[simp] theorem State.beginEmission_freeCount (op : BitVec 4) (es : List Emission) :
    (s.beginEmission op es).freeCount = s.freeCount := rfl

end Sys2Proof.Machine
end

