-- ==== Sys2Proof/Laws/Ops.lean ====
section
/-! SUPPORT. One lemma per shared operation that says what it can do. Proofs cite these instead of unfolding. -/

namespace Sys2Proof.Machine

open Sys2Proof

variable {s t : State}

/-! ### The gates of a host write -/

@[simp] theorem State.gated_halted (f : State → State) (h : s.halt = true) : s.gated f = s := by
  simp [State.gated, h]

@[simp] theorem State.gated_busy (f : State → State) (h : s.halt = false) (hb : s.busy = true) :
    s.gated f = s.setOvr := by
  simp [State.gated, h, hb]

@[simp] theorem State.gated_accepting (f : State → State) (h : s.halt = false) (hc : s.cur = none) :
    s.gated f = f s := by
  simp [State.gated, h, State.busy, hc]

/-- The three outcomes of the gates. -/
theorem State.gated_cases (s : State) (f : State → State) :
    (s.halt = true ∧ s.gated f = s) ∨
      (s.halt = false ∧ s.cur ≠ none ∧ s.gated f = s.setOvr) ∨
      (s.halt = false ∧ s.cur = none ∧ s.gated f = f s) := by
  cases h : s.halt
  · by_cases hc : s.cur = none
    · exact .inr (.inr ⟨rfl, hc, State.gated_accepting f h hc⟩)
    · refine .inr (.inl ⟨rfl, hc, State.gated_busy f h ?_⟩)
      exact Option.isSome_iff_ne_none.mpr hc
  · exact .inl ⟨rfl, State.gated_halted f h⟩

@[simp] theorem State.busy_eq_false_iff : s.busy = false ↔ s.cur = none := by
  simp [State.busy]

@[simp] theorem State.busy_eq_true_iff : s.busy = true ↔ s.cur ≠ none := by
  simp [State.busy, Option.isSome_iff_ne_none]

/-! ### Acceptance of an emission command -/

/-- The three outcomes of the acceptance procedure. -/
theorem State.acceptEmission_cases (s : State) (i : Instr) (bad : Option Cause) (es : List Emission) :
    (s.session = false ∧ s.acceptEmission i bad es = s.raiseFault .noSession (encode i)) ∨
      (s.session = true ∧ ∃ c, bad = some c ∧ s.acceptEmission i bad es = s.raiseFault c (encode i)) ∨
      (s.session = true ∧ bad = none ∧ s.acceptEmission i bad es = s.beginEmission i.opcode es) := by
  cases h : s.session
  · exact .inl ⟨rfl, by simp [State.acceptEmission, h]⟩
  · cases bad with
    | none => exact .inr (.inr ⟨rfl, rfl, by simp [State.acceptEmission, h]⟩)
    | some c => exact .inr (.inl ⟨rfl, c, rfl, by simp [State.acceptEmission, h]⟩)

/-- Everything a CMD write of an emission command can do. -/
theorem submitEmission_cases {i : Instr} {bad : Option Cause} {es : List Emission}
    (h : submitEmission i bad es s = .next t) :
    (s.halt = true ∧ t = s) ∨
      (s.halt = false ∧ s.cur ≠ none ∧ t = s.setOvr) ∨
      (s.halt = false ∧ s.cur = none ∧ s.session = false ∧ t = s.raiseFault .noSession (encode i)) ∨
      (s.halt = false ∧ s.cur = none ∧ s.session = true ∧ ∃ c, bad = some c ∧ t = s.raiseFault c (encode i)) ∨
      (s.halt = false ∧ s.cur = none ∧ s.session = true ∧ bad = none ∧ t = s.beginEmission i.opcode es) := by
  have ht : s.gated (fun s => s.acceptEmission i bad es) = t := by
    simpa [submitEmission] using h
  subst ht
  rcases s.gated_cases fun s => s.acceptEmission i bad es with ⟨h1, e⟩ | ⟨h1, h2, e⟩ | ⟨h1, h2, e⟩
  · exact .inl ⟨h1, e⟩
  · exact .inr (.inl ⟨h1, h2, e⟩)
  · rcases s.acceptEmission_cases i bad es with ⟨h3, e3⟩ | ⟨h3, c, h4, e3⟩ | ⟨h3, h4, e3⟩
    · exact .inr (.inr (.inl ⟨h1, h2, h3, e.trans e3⟩))
    · exact .inr (.inr (.inr (.inl ⟨h1, h2, h3, c, h4, e.trans e3⟩)))
    · exact .inr (.inr (.inr (.inr ⟨h1, h2, h3, h4, e.trans e3⟩)))

/-- Every command is one effect behind the gates of a host write. -/
theorem exec_gated (i : Instr) : ∃ f : State → State, ∀ s, exec i s = .next (s.gated f) := by
  cases i <;> exact ⟨_, fun _ => rfl⟩

/-- A write to any slot is one effect behind the gates. -/
theorem memWrite_gated (off : BitVec 8) (w : Word) : ∃ f : State → State, ∀ s, memWrite off w s = .next (s.gated f) := by
  unfold memWrite submitWord
  split
  · cases decode w with
    | ok i => exact exec_gated i
    | error e => exact ⟨_, fun _ => rfl⟩
  · exact ⟨_, fun _ => rfl⟩

/-! ### The engine -/

@[simp] theorem State.engineStep_quiet (h : s.cur = none) : s.engineStep = s := by
  simp [State.engineStep, h]

/-- The engine step on the last segment of a command. -/
theorem State.engineStep_last {c : Current} (h : s.cur = some c) (hq : s.queue = []) :
    s.engineStep =
      { s with
        cur := none
        queue := []
        latency := 0
        events := s.events ++ [.seg c.seg.level c.seg.d c.seg.tag, .ended] } := by
  simp [State.engineStep, h, hq, State.load, State.addEvent]

/-- The engine step when more segments follow. -/
theorem State.engineStep_more {c : Current} {g : Segment} {gs : List Segment} (h : s.cur = some c)
    (hq : s.queue = g :: gs) :
    s.engineStep =
      { s with
        cur := some ⟨g, g.d⟩
        queue := gs
        latency := 0
        events := s.events ++ [.seg c.seg.level c.seg.d c.seg.tag] } := by
  simp [State.engineStep, h, hq, State.load, State.addEvent]

@[simp] theorem State.tick_quiet (h : s.cur = none) : s.tick = s := by
  simp [State.tick, h]

theorem State.tick_latency {c : Current} (h : s.cur = some c) (hl : 0 < s.latency) :
    s.tick = { s with latency := s.latency - 1 } := by
  simp [State.tick, h, hl]

theorem State.tick_count {c : Current} (h : s.cur = some c) (hl : s.latency = 0) (hc : 1 < c.cnt) :
    s.tick = { s with cur := some ⟨c.seg, c.cnt - 1⟩ } := by
  simp [State.tick, Config.tickUs, h, hl, Nat.not_le.mpr hc]

theorem State.tick_edge {c : Current} (h : s.cur = some c) (hl : s.latency = 0) (hc : c.cnt ≤ 1) :
    s.tick = s.engineStep := by
  simp [State.tick, Config.tickUs, h, hl, hc]

/-! ### The host port -/

/-- An access of another size is refused. -/
theorem checkedAccess_size {off size : Nat} {k : BitVec 8 → Result} (h : size ≠ 4) :
    checkedAccess off size k = .refused (.accessSize size) := by
  simp [checkedAccess, h]

/-- An access that answers a next state is 32 bits wide, aligned and in the window. -/
theorem checkedAccess_next {off size : Nat} {k : BitVec 8 → Result} (h : checkedAccess off size k = .next t) :
    size = 4 ∧ off % 4 = 0 ∧ off < 256 ∧ k (BitVec.ofNat 8 off) = .next t := by
  unfold checkedAccess at h
  split at h
  · split at h
    · split at h
      · exact ⟨‹_›, ‹_›, ‹_›, h⟩
      · cases h
    · cases h
  · cases h

/-- An admitted access has its effect. -/
theorem checkedAccess_admitted {off : Nat} (k : BitVec 8 → Result) (ha : off % 4 = 0) (hw : off < 256) :
    checkedAccess off 4 k = k (BitVec.ofNat 8 off) := by
  simp [checkedAccess, ha, Config.windowBytes, hw]

/-- What a write to CMD can do: the decoded command, or ILLEGAL_CMD behind the gates. -/
theorem submitWord_cases (w : Word) (s : State) :
    (∃ i, decode w = .ok i ∧ submitWord w s = exec i s) ∨
      (∃ e, decode w = .error e ∧ submitWord w s = .next (s.gated fun s => s.raiseFault .illegalCmd w)) := by
  unfold submitWord
  cases h : decode w with
  | ok i => exact .inl ⟨i, rfl, rfl⟩
  | error e => exact .inr ⟨e, rfl, rfl⟩

/-- A write to a slot that is not CMD stores behind the gates. -/
theorem memWrite_store {off : BitVec 8} {w : Word} (h : regAt (slotOf off) ≠ .cmd) :
    memWrite off w s = .next (s.gated fun s => s.storeReg (regAt (slotOf off)) w) := by
  unfold memWrite
  split
  · exact absurd ‹_› h
  · rfl

theorem step_next_move {m : Move} {rest : List Move} (h : s.pending = m :: rest) :
    step s = serve m (s.setPending rest) := by
  simp [step, advance, h]

theorem step_no_move (h : s.pending = []) : step s = .next s.engineStep := by
  simp [step, advance, h]

/-- A pending 32-bit write, admitted, is performed. -/
theorem step_write {off : Nat} {w : Word} {rest : List Move} (h : s.pending = wr off w :: rest)
    (ha : off % 4 = 0) (hw : off < 256) :
    step s = memWrite (BitVec.ofNat 8 off) w (s.setPending rest) := by
  rw [step_next_move h]
  exact checkedAccess_admitted (fun o => memWrite o w (s.setPending rest)) ha hw

/-- A pending CMD write submits its word. -/
theorem step_command {w : Word} {rest : List Move} (h : s.pending = wr 0 w :: rest) :
    step s = submitWord w (s.setPending rest) := by
  rw [step_write h (by decide) (by decide)]
  rfl

/-! ### Expansions -/

@[simp] theorem expand_nil (a : Profile) : expand a [] = [] := rfl

@[simp] theorem expand_cons (a : Profile) (e : Emission) (es : List Emission) :
    expand a (e :: es) = segmentsOf a e ++ expand a es := rfl

@[simp] theorem expand_append (a : Profile) (es fs : List Emission) :
    expand a (es ++ fs) = expand a es ++ expand a fs := by
  simp [expand]

@[simp] theorem totalDuration_append (gs hs : List Segment) :
    totalDuration (gs ++ hs) = totalDuration gs + totalDuration hs := by
  simp [totalDuration]

@[simp] theorem bitRun_length {n : Nat} (ph : Phase) (b : BitVec 4) (v : BitVec n) :
    (bitRun ph b v).length = n := by
  simp [bitRun]

theorem bitRun_getElem? {n : Nat} (ph : Phase) (b : BitVec 4) (v : BitVec n) {j : Nat} (h : j < n) :
    (bitRun ph b v)[j]? = some (Symbol.ofBit (v.getLsbD (n - 1 - j)), ⟨ph, b, BitVec.ofNat 6 j⟩) := by
  simp [bitRun, h]

@[simp] theorem blockSeq_length (page : Bool) (addr : BitVec 3) (lock : Bool) (pwd : Option Word) (data : Word)
    (b : BitVec 4) :
    (blockSeq page addr lock pwd data b).length = 45 + if pwd.isSome then 32 else 0 := by
  cases pwd <;> simp [blockSeq, opcodeFrame, resetFrame]

end Sys2Proof.Machine
end

