-- ==== Sys2Proof/Laws/PerInstr.lean ====
section
/-! SUPPORT. Statements per instruction: the fixed fields of every command's word. -/

namespace Sys2Proof.Laws

/-- Bits 3:0 of a command's word are its OP value and bits 31:13 are 0 (30_encoding.md R81 to R83). -/
def FixedFields.Statement (i : Instr) : Prop :=
  opField (encode i) = i.opcode ∧ (encode i).extractLsb' 13 19 = 0#19

theorem FixedFields.start : FixedFields.Statement .start := by unfold FixedFields.Statement; decide

theorem FixedFields.stop : FixedFields.Statement .stop := by unfold FixedFields.Statement; decide

theorem FixedFields.bit (v : Bool) : FixedFields.Statement (.bit v) := by
  unfold FixedFields.Statement; revert v; decide

theorem FixedFields.sgap : FixedFields.Statement .sgap := by unfold FixedFields.Statement; decide

theorem FixedFields.opc (p : BitVec 2) : FixedFields.Statement (.opc p) := by
  unfold FixedFields.Statement; revert p; decide

theorem FixedFields.rstf : FixedFields.Statement .rstf := by unfold FixedFields.Statement; decide

theorem FixedFields.wblk (p : BitVec 2) (n : BitVec 4) (l e : Bool) : FixedFields.Statement (.wblk p n l e) := by
  unfold FixedFields.Statement; revert p n l e; decide

theorem FixedFields.wbatch (k : BitVec 4) : FixedFields.Statement (.wbatch k) := by
  unfold FixedFields.Statement; revert k; decide

end Sys2Proof.Laws
end

