-- ==== Sys2Proof/Laws/Step.lean ====
section
/-! SUPPORT. What a command and a step can do, each said once: proofs about all steps go through these case lists. -/

namespace Sys2Proof.Machine

open Sys2Proof

variable {s t : State}

/-! ### Commands -/

/-- A halted block answers every command with the state unchanged. -/
theorem exec_halted (i : Instr) (h : s.halt = true) : exec i s = .next s := by
  obtain ⟨f, hf⟩ := exec_gated i
  rw [hf, State.gated_halted f h]

/-- A busy block answers every command with OVR set. -/
theorem exec_busy (i : Instr) (h : s.halt = false) (hc : s.cur ≠ none) : exec i s = .next s.setOvr := by
  obtain ⟨f, hf⟩ := exec_gated i
  rw [hf, State.gated_busy f h (State.busy_eq_true_iff.mpr hc)]

/-- A submitted emission command either takes a fault other than NONE or begins its expansion. -/
theorem submitEmission_accepting {i : Instr} {bad : Option Cause} {es : List Emission} (hh : s.halt = false)
    (hc : s.cur = none) (hb : bad ≠ some .noFault) (h : submitEmission i bad es s = .next t) :
    (∃ c, c ≠ .noFault ∧ t = s.raiseFault c (encode i)) ∨ (s.session = true ∧ t = s.beginEmission i.opcode es) := by
  rcases submitEmission_cases h with ⟨h1, _⟩ | ⟨_, h2, _⟩ | ⟨_, _, _, e⟩ | ⟨_, _, _, c, hbad, e⟩ | ⟨_, _, h3, _, e⟩
  · simp [hh] at h1
  · exact absurd hc h2
  · exact .inl ⟨_, by decide, e⟩
  · exact .inl ⟨c, fun hn => hb (by rw [hbad, hn]), e⟩
  · exact .inr ⟨h3, e⟩

theorem checkPage_ne (p : BitVec 2) : checkPage p ≠ some .noFault := by
  revert p; decide

theorem checkAddress_ne (n : BitVec 4) : checkAddress n ≠ some .noFault := by
  revert n; decide

theorem checkCount_ne (k : BitVec 4) : checkCount k ≠ some .noFault := by
  revert k; decide

theorem checkBlock_ne (p : BitVec 2) (n : BitVec 4) : (checkPage p).or (checkAddress n) ≠ some .noFault := by
  revert p n; decide

/-- The symbols that an accepted command emits; START and STOP emit none. -/
def expansionOf (i : Instr) (s : State) : List Emission :=
  match i with
  | .start => []
  | .stop => []
  | .bit v => [(Symbol.ofBit v, ⟨.primBit, 0#4, 0#6⟩)]
  | .sgap => [(.s, ⟨.primSgap, 0#4, 0#6⟩)]
  | .opc p => opcodeFrame (p.getLsbD 0) 0#4
  | .rstf => resetFrame .reset 0#4
  | .wblk p n l e => blockExpansion p n l e s
  | .wbatch k => batchExpansion k s.blk

/-- Everything a command can do in a block that examines it: take a fault, open the session, close it, or begin its
emission. -/
theorem exec_accepting (i : Instr) (hh : s.halt = false) (hc : s.cur = none) (h : exec i s = .next t) :
    (∃ c, c ≠ .noFault ∧ t = s.raiseFault c (encode i)) ∨
      (i = .start ∧ s.session = false ∧ s.profile.allNonzero = true ∧ t = s.openSession) ∨
      (i = .stop ∧ t = s.closeSession) ∨
      (i ≠ .start ∧ i ≠ .stop ∧ s.session = true ∧ t = s.beginEmission i.opcode (expansionOf i s)) := by
  have emit : ∀ {bad es}, bad ≠ some Cause.noFault → submitEmission i bad es s = .next t →
      es = expansionOf i s → i ≠ .start → i ≠ .stop →
      (∃ c, c ≠ .noFault ∧ t = s.raiseFault c (encode i)) ∨
        (i = .start ∧ s.session = false ∧ s.profile.allNonzero = true ∧ t = s.openSession) ∨
        (i = .stop ∧ t = s.closeSession) ∨
        (i ≠ .start ∧ i ≠ .stop ∧ s.session = true ∧ t = s.beginEmission i.opcode (expansionOf i s)) := by
    intro bad es hb he hes h1 h2
    subst hes
    rcases submitEmission_accepting hh hc hb he with h3 | ⟨h3, e⟩
    · exact .inl h3
    · exact .inr (.inr (.inr ⟨h1, h2, h3, e⟩))
  cases i with
  | start =>
    rw [exec, execStart, State.gated_accepting _ hh hc] at h
    split at h
    · exact .inl ⟨_, by decide, (Host.Outcome.next.inj h).symm⟩
    · rename_i hs
      split at h
      · exact .inr (.inl ⟨rfl, by simpa using hs, ‹_›, (Host.Outcome.next.inj h).symm⟩)
      · exact .inl ⟨_, by decide, (Host.Outcome.next.inj h).symm⟩
  | stop =>
    rw [exec, execStop, State.gated_accepting _ hh hc] at h
    exact .inr (.inr (.inl ⟨rfl, (Host.Outcome.next.inj h).symm⟩))
  | bit v => exact emit (by decide) h rfl (by simp) (by simp)
  | sgap => exact emit (by decide) h rfl (by decide) (by decide)
  | opc p => exact emit (checkPage_ne p) h rfl (by simp) (by simp)
  | rstf => exact emit (by decide) h rfl (by decide) (by decide)
  | wblk p n l e => exact emit (checkBlock_ne p n) h rfl (by simp) (by simp)
  | wbatch k => exact emit (checkCount_ne k) h rfl (by simp) (by simp)

/-! ### Steps -/

/-- A word slot is CMD only at offset 0. -/
theorem off_of_cmd {off : Nat} (ha : off % 4 = 0) (hw : off < 256) (h : regAt (slotOf (BitVec.ofNat 8 off)) = .cmd) :
    off = 0 := by
  have slots : ∀ k < 64, regAt (slotOf (BitVec.ofNat 8 (4 * k))) = .cmd → 4 * k = 0 := by decide
  obtain ⟨k, rfl⟩ : ∃ k, off = 4 * k := ⟨off / 4, by omega⟩
  exact slots k (by omega) h

/-- Everything a write to a slot can do. -/
theorem memWrite_cases {off : Nat} {w : Word} (ha : off % 4 = 0) (hw : off < 256)
    (h : memWrite (BitVec.ofNat 8 off) w s = .next t) :
    (s.halt = true ∧ t = s) ∨
      (s.halt = false ∧ s.cur ≠ none ∧ t = s.setOvr) ∨
      (s.halt = false ∧ s.cur = none ∧ t = s.storeReg (regAt (slotOf (BitVec.ofNat 8 off))) w) ∨
      (s.halt = false ∧ s.cur = none ∧ off = 0 ∧ t = s.raiseFault .illegalCmd w) ∨
      (s.halt = false ∧ s.cur = none ∧ off = 0 ∧ ∃ i, decode w = .ok i ∧ exec i s = .next t) := by
  obtain ⟨f, hf⟩ := memWrite_gated (BitVec.ofNat 8 off) w
  rcases s.gated_cases f with ⟨h1, e⟩ | ⟨h1, h2, e⟩ | ⟨h1, h2, -⟩
  · exact .inl ⟨h1, by rw [hf, e] at h; exact (Host.Outcome.next.inj h).symm⟩
  · exact .inr (.inl ⟨h1, h2, by rw [hf, e] at h; exact (Host.Outcome.next.inj h).symm⟩)
  · by_cases hr : regAt (slotOf (BitVec.ofNat 8 off)) = .cmd
    · have h0 := off_of_cmd ha hw hr
      have hsub : memWrite (BitVec.ofNat 8 off) w s = submitWord w s := by
        subst h0; rfl
      rw [hsub] at h
      rcases submitWord_cases w s with ⟨i, hi, e⟩ | ⟨_, _, e⟩
      · exact .inr (.inr (.inr (.inr ⟨h1, h2, h0, i, hi, e ▸ h⟩)))
      · rw [e, State.gated_accepting _ h1 h2] at h
        exact .inr (.inr (.inr (.inl ⟨h1, h2, h0, (Host.Outcome.next.inj h).symm⟩)))
    · rw [memWrite_store hr, State.gated_accepting _ h1 h2] at h
      exact .inr (.inr (.inl ⟨h1, h2, (Host.Outcome.next.inj h).symm⟩))

/-- Everything a step that answers a next state can be. -/
theorem step_cases (h : step s = .next t) :
    (s.pending = [] ∧ t = s.engineStep) ∨
      (∃ rest, s.pending = .engine :: rest ∧ t = (s.setPending rest).engineStep) ∨
      (∃ rest, s.pending = .tick :: rest ∧ t = (s.setPending rest).tick) ∨
      (∃ rest, s.pending = .reset :: rest ∧ t = (s.setPending rest).resetBlock) ∨
      (∃ rest ms, s.pending = .waitIdle :: rest ∧ (∀ m ∈ ms, m = .engine ∨ m = .waitIdle) ∧
        t = (s.addRead s.status).setPending (ms ++ rest)) ∨
      (∃ rest off, s.pending = rd off :: rest ∧ off % 4 = 0 ∧ off < 256 ∧
        t = (s.setPending rest).addRead ((s.setPending rest).readReg (regAt (slotOf (BitVec.ofNat 8 off))))) ∨
      (∃ rest off w, s.pending = wr off w :: rest ∧ off % 4 = 0 ∧ off < 256 ∧
        memWrite (BitVec.ofNat 8 off) w (s.setPending rest) = .next t) := by
  cases hp : s.pending with
  | nil => exact .inl ⟨rfl, (Host.Outcome.next.inj ((step_no_move hp).symm.trans h)).symm⟩
  | cons m rest =>
    rw [step_next_move hp] at h
    refine .inr ?_
    cases m with
    | access a =>
      cases a with
      | read off size =>
        obtain ⟨rfl, ha, hw, e⟩ := checkedAccess_next (k := fun o => memRead o (s.setPending rest)) h
        exact .inr (.inr (.inr (.inr (.inl ⟨rest, off, rfl, ha, hw, (Host.Outcome.next.inj e).symm⟩))))
      | write off size w =>
        obtain ⟨rfl, ha, hw, e⟩ := checkedAccess_next (k := fun o => memWrite o w (s.setPending rest)) h
        exact .inr (.inr (.inr (.inr (.inr ⟨rest, off, w, rfl, ha, hw, e⟩))))
    | waitIdle =>
      refine .inr (.inr (.inr (.inl ?_)))
      have e := (Host.Outcome.next.inj h).symm
      by_cases hb : ((s.setPending rest).readReg .status).getLsbD 1 = true
      · refine ⟨rest, [.engine, .waitIdle], rfl, by simp, ?_⟩
        rw [e, if_pos hb]; rfl
      · refine ⟨rest, [], rfl, by simp, ?_⟩
        rw [e, if_neg hb]; rfl
    | tick => exact .inr (.inl ⟨rest, rfl, (Host.Outcome.next.inj h).symm⟩)
    | engine => exact .inl ⟨rest, rfl, (Host.Outcome.next.inj h).symm⟩
    | reset => exact .inr (.inr (.inl ⟨rest, rfl, (Host.Outcome.next.inj h).symm⟩))

/-- A tick does nothing, counts, or is the engine step. -/
theorem State.tick_cases (s : State) :
    (s.cur = none ∧ s.tick = s) ∨
      (∃ c, s.cur = some c ∧ 0 < s.latency ∧ s.tick = { s with latency := s.latency - 1 }) ∨
      (∃ c, s.cur = some c ∧ s.latency = 0 ∧ 1 < c.cnt ∧ s.tick = { s with cur := some ⟨c.seg, c.cnt - 1⟩ }) ∨
      (∃ c, s.cur = some c ∧ s.latency = 0 ∧ c.cnt ≤ 1 ∧ s.tick = s.engineStep) := by
  rcases Option.eq_none_or_eq_some s.cur with hc | ⟨c, hc⟩
  · exact .inl ⟨hc, State.tick_quiet hc⟩
  · refine .inr ?_
    by_cases hl : 0 < s.latency
    · exact .inl ⟨c, hc, hl, State.tick_latency hc hl⟩
    · have hl : s.latency = 0 := by omega
      by_cases h1 : 1 < c.cnt
      · exact .inr (.inl ⟨c, hc, hl, h1, State.tick_count hc hl h1⟩)
      · exact .inr (.inr ⟨c, hc, hl, by omega, State.tick_edge hc hl (by omega)⟩)

/-- The engine step does nothing, ends the command, or goes on to the next segment. -/
theorem State.engineStep_cases (s : State) :
    (s.cur = none ∧ s.engineStep = s) ∨
      (∃ c, s.cur = some c ∧ s.queue = [] ∧ s.engineStep =
        { s with
          cur := none
          queue := []
          latency := 0
          events := s.events ++ [.seg c.seg.level c.seg.d c.seg.tag, .ended] }) ∨
      (∃ c g gs, s.cur = some c ∧ s.queue = g :: gs ∧ s.engineStep =
        { s with
          cur := some ⟨g, g.d⟩
          queue := gs
          latency := 0
          events := s.events ++ [.seg c.seg.level c.seg.d c.seg.tag] }) := by
  cases hc : s.cur with
  | none => exact .inl ⟨rfl, State.engineStep_quiet hc⟩
  | some c =>
    cases hq : s.queue with
    | nil => exact .inr (.inl ⟨c, rfl, rfl, State.engineStep_last hc hq⟩)
    | cons g gs => exact .inr (.inr ⟨c, g, gs, rfl, rfl, State.engineStep_more hc hq⟩)

/-! ### Runs -/

@[simp] theorem run_zero (s : State) : Host.Core.run Sys2Proof.core 0 s = .next s := rfl

theorem run_next (n : Nat) (h : step s = .next t) :
    Host.Core.run Sys2Proof.core (n + 1) s = Host.Core.run Sys2Proof.core n t := by
  have hs : Sys2Proof.core.step s = .next t := h
  simp only [Host.Core.run, hs]

/-- The first step of a run that answers a next state answers one too. -/
theorem run_inv {n : Nat} (h : Host.Core.run Sys2Proof.core (n + 1) s = .next t) :
    ∃ u, step s = .next u ∧ Host.Core.run Sys2Proof.core n u = .next t := by
  cases hs : step s with
  | next u => exact ⟨u, rfl, (run_next n hs) ▸ h⟩
  | fault r =>
    have hs' : Sys2Proof.core.step s = .fault r := hs
    simp only [Host.Core.run, hs'] at h
    cases h
  | refused r =>
    have hs' : Sys2Proof.core.step s = .refused r := hs
    simp only [Host.Core.run, hs'] at h
    cases h

end Sys2Proof.Machine
end

