-- ==== Sys2Proof/Tests/Slice0.lean ====
section
/-! SUPPORT. The model's own tests. Expected results are the spec's examples and vectors (95_test_vectors.md), or hand
calculation from its rules. `witness_` theorems show states and operands that meet a statement's hypotheses. -/

namespace Sys2Proof.Tests

open Sys2Proof Sys2Proof.Machine

/-- Profile E of 95_test_vectors.md section 2. -/
def profileE : Profile := ⟨400#16, 30#16, 18#16, 24#16, 56#16, 700#16⟩

/-- IDLE with profile E loaded. -/
def idleE : State := { State.reset with profile := profileE }

/-- ACTIVE under E (95_test_vectors.md section 2). -/
def activeE : State := { idleE with act := profileE, session := true, events := [.on] }

/-- WRITING: the segments of `BIT 1` under E, the first of them current, with OVR still 0. -/
def writingE : State :=
  { activeE with
    cur := some ⟨⟨.cw, 448, ⟨.primBit, 0#4, 0#6⟩⟩, 448⟩
    queue := [⟨.gap, 144, ⟨.primBit, 0#4, 0#6⟩⟩]
    events := [.on, .began 3#4] }

/-- HALTED, as V50 leaves the block. -/
def haltedE : State := { idleE with halt := true, cause := .noSession, faultCmd := 0x208#32 }

/-- The result is a next state of which `f` holds. -/
def nextWith (f : State → Bool) : Result → Bool
  | .next t => f t
  | .fault _ => false
  | .refused _ => false

/-! ### Well-formedness: each check refuses an ill-formed term -/

theorem test_wellFormed_opc_page : (Instr.opc 2#2).wellFormed = false := by decide
theorem test_wellFormed_wblk_page : (Instr.wblk 2#2 0#4 false false).wellFormed = false := by decide
theorem test_wellFormed_wblk_address : (Instr.wblk 0#2 8#4 false false).wellFormed = false := by decide
theorem test_wellFormed_wbatch_count : (Instr.wbatch 9#4).wellFormed = false := by decide
theorem test_wellFormed_bounds :
    (Instr.wblk 1#2 7#4 true true).wellFormed = true ∧ (Instr.wbatch 8#4).wellFormed = true := by decide

/-! ### Decoding: words written out from the patterns of 30_encoding.md R83 -/

theorem test_decode_start : decode 0b00000000000000000000000000000001#32 = .ok .start := by decide
theorem test_decode_stop : decode 0b00000000000000000000000000000010#32 = .ok .stop := by decide
theorem test_decode_bit : decode 0b00000000000000000001000000000011#32 = .ok (.bit true) := by decide
theorem test_decode_sgap : decode 0b00000000000000000000000000000100#32 = .ok .sgap := by decide
theorem test_decode_opc : decode 0b00000000000000000000000000100101#32 = .ok (.opc 2#2) := by decide
theorem test_decode_rstf : decode 0b00000000000000000000000000000110#32 = .ok .rstf := by decide
/-- p = 01, l = 0, e = 1, n = 1010. -/
theorem test_decode_wblk : decode 0b00000000000000000000101010010111#32 = .ok (.wblk 1#2 10#4 false true) := by decide
/-- PR2's word, `WBLK 1, 3, 1, 1`. -/
theorem test_decode_wblk_pr2 : decode 0x000003D7#32 = .ok (.wblk 1#2 3#4 true true) := by decide
theorem test_decode_wbatch : decode 0b00000000000000000000100100001000#32 = .ok (.wbatch 9#4) := by decide
/-- V56 to V59. -/
theorem test_decode_illegal :
    decode 0x00000000#32 = .error .opcode ∧ decode 0x0000000F#32 = .error .opcode ∧
      decode 0x00002003#32 = .error .field ∧ decode 0x00001004#32 = .error .field := by decide
theorem test_table_word : decodeTableWord 32 0x208 = some (.wbatch 2#4) := by decide
/-- The words of 30_encoding.md R88. -/
theorem test_encode_words :
    encode (.bit true) = 0x00001003#32 ∧ encode (.wblk 2#2 9#4 false false) = 0x00000927#32 ∧
      encode (.wbatch 2#4) = 0x00000208#32 := by decide

/-! ### One step per command -/

/-- V40: START in IDLE with profile E. -/
theorem test_start : nextWith (fun t => t.status == 0x9#32 && t.act == profileE) (exec .start idleE) = true := by decide
/-- V51: a second START. -/
theorem test_start_twice :
    nextWith (fun t => t.status == 0x10#32 && t.faultWord == 3#32 && t.events == [.on, .fault .sessionActive 1#32, .off])
      (exec .start activeE) = true := by decide
/-- V41: STOP in ACTIVE. -/
theorem test_stop : nextWith (fun t => t.status == 0#32 && t.events == [.on, .off]) (exec .stop activeE) = true := by decide
/-- V42: STOP while idle. -/
theorem test_stop_idle : nextWith (fun t => t == idleE) (exec .stop idleE) = true := by decide
/-- V11: BIT 1. -/
theorem test_bit :
    nextWith (fun t => t.status == 0xB0F#32 && t.cur == writingE.cur && t.queue == writingE.queue)
      (exec (.bit true) activeE) = true := by decide
/-- V10: BIT 0 holds for 192 µs. -/
theorem test_bit_zero :
    nextWith (fun t => (t.cur.map fun c => c.seg.d) == some 192) (exec (.bit false) activeE) = true := by decide
/-- V12: SGAP. -/
theorem test_sgap :
    nextWith (fun t => t.status == 0xC07#32 && (t.cur.map fun c => c.seg.d) == some 240 && t.queue.isEmpty)
      (exec .sgap activeE) = true := by decide
/-- V13: OPC 0. -/
theorem test_opc :
    nextWith (fun t => t.status == 0x30F#32 && (t.queue.map fun g => g.d) == [144, 192, 144])
      (exec (.opc 0#2) activeE) = true := by decide
/-- V52: OPC 2. -/
theorem test_opc_bad_page :
    nextWith (fun t => t.status == 0x10#32 && t.faultWord == 4#32 && t.faultCmd == 0x25#32)
      (exec (.opc 2#2) activeE) = true := by decide
/-- V15: RSTF. -/
theorem test_rstf :
    nextWith (fun t => t.status == 0xA07#32 && (t.queue.map fun g => g.d) == [448, 144, 192, 144])
      (exec .rstf activeE) = true := by decide
/-- V20: WBLK 0, 5, 0, 0 with DATA = 0: 85 segments, 26944 µs. -/
theorem test_wblk :
    nextWith (fun t => t.status == 0x10F#32 && t.queue.length == 84 && 3200 + totalDuration t.queue == 26944)
      (exec (.wblk 0#2 5#4 false false) activeE) = true := by decide
/-- V27: WBLK 1, 3, 1, 1 with a password: the second password bit is 0, and the 37th symbol is the lock bit. -/
theorem test_wblk_password :
    nextWith (fun t => t.symbols[5]? == some (.b0, ⟨.password, 0#4, 1#6⟩) &&
        t.symbols[36]? == some (.b1, ⟨.lock, 0#4, 0#6⟩))
      (exec (.wblk 1#2 3#4 true true)
        { activeE with data := 0x12345678#32, password := 0xA5A5A5A5#32 }) = true := by decide
/-- V31: WBATCH 0 emits the final reset frame alone. -/
theorem test_wbatch_zero :
    nextWith (fun t => t.status == 0xD07#32 && (t.queue.map fun g => g.d) == [448, 144, 192, 144])
      (exec (.wbatch 0#4) activeE) = true := by decide
/-- V32: WBATCH 1 with BLK0 = 0: 90 segments, 27600 µs. -/
theorem test_wbatch_one :
    nextWith (fun t => t.queue.length == 89 && 3200 + totalDuration t.queue == 27600)
      (exec (.wbatch 1#4) activeE) = true := by decide

/-! ### The port, the engine and reset -/

/-- V60: the session is checked before page and block. -/
theorem test_priority :
    nextWith (fun t => t.faultWord == 2#32) (step (idleE.withFetchWord 32 0x927)) = true := by decide
/-- V55: START right after reset, fetched by a step. -/
theorem test_first_step :
    nextWith (fun t => t.faultWord == 6#32 && t.faultCmd == 1#32) (step (State.reset.withFetchWord 32 1)) = true := by
  decide
/-- V19: a profile register keeps bits 15:0. -/
theorem test_profile_width :
    nextWith (fun t => t.profile.program == 700#16)
      (step (State.reset.setPending [wr 0x34 0x000102BC#32])) = true := by decide
/-- V66: reads of CMD and of a reserved offset. -/
theorem test_read_reserved :
    nextWith (fun t => t.reads == [0#32]) (step (activeE.setPending [rd 0x1C])) = true ∧
      nextWith (fun t => t.reads == [0#32]) (step (activeE.setPending [rd 0x00])) = true := by decide
/-- V63: STOP written while BIT 1 runs. -/
theorem test_overrun :
    nextWith (fun t => t.status == 0xB2F#32) (step (writingE.withFetchWord 32 2)) = true := by decide
/-- V63: after the second segment the command has ended. -/
theorem test_engine_end :
    nextWith (fun t => t.status == 0x9#32) (step ({ writingE with queue := [] }.setPending [.engine])) = true := by decide
/-- R161: a tick takes one from CNT. -/
theorem test_tick : writingE.tick.cur = some ⟨⟨.cw, 448, ⟨.primBit, 0#4, 0#6⟩⟩, 447⟩ := by decide
/-- V65: reset in the middle of a command. -/
theorem test_reset :
    nextWith (fun t => t.status == 0#32 && t.profile == Profile.zero && t.events == [.on, .began 3#4, .off, .reset])
      (step (writingE.setPending [.reset])) = true := by decide
/-- V16: SGAP's gap, then BIT 1 after an idle carrier of undetermined length. -/
theorem test_envelope :
    envelope [.on, .began 4#4, .seg .gap 240 ⟨.primSgap, 0#4, 0#6⟩, .ended, .began 3#4,
        .seg .cw 448 ⟨.primBit, 0#4, 0#6⟩, .seg .gap 144 ⟨.primBit, 0#4, 0#6⟩, .ended] =
      [⟨false, 0, false⟩, ⟨true, 0, false⟩, ⟨false, 240, true⟩, ⟨true, 448, false⟩, ⟨false, 144, true⟩,
        ⟨true, 0, false⟩] := by decide

/-- R90 with R89's own word for WBATCH 2, and R88 for a count that does not fit its field. -/
theorem test_t5577_write :
    t5577Write [1#32, 2#32] = some [wr 0x40 1#32, wr 0x44 2#32, wr 0x00 0x00000208#32, .waitIdle] ∧
      t5577Write (List.replicate 16 0#32) = none := by decide

/-! ### Witnesses -/

theorem witness_Idle : idleE.Idle := ⟨⟨rfl, rfl⟩, rfl⟩

theorem witness_Active : activeE.Active := ⟨⟨rfl, rfl⟩, rfl⟩

theorem witness_Writing : writingE.Writing ⟨⟨.cw, 448, ⟨.primBit, 0#4, 0#6⟩⟩, 448⟩ := ⟨rfl, rfl, rfl⟩

theorem witness_writing_inv : writingE.Inv where
  busyOpen := fun _ => ⟨rfl, rfl⟩
  quietEmpty := fun h => by cases h
  count := fun c h => by cases h; decide
  curSound := fun c h => by cases h; exact ⟨by decide, by decide, by decide, by decide⟩
  queueSound := fun g h => by
    rw [List.mem_singleton.mp h]; exact ⟨by decide, by decide, by decide, by decide⟩
  actNonzero := fun _ => by decide
  haltClosed := fun h => by cases h
  noRecord := fun _ => ⟨rfl, rfl⟩
  record := fun h => by cases h

theorem witness_halted_inv : haltedE.Inv where
  busyOpen := fun h => absurd rfl h
  quietEmpty := fun _ => rfl
  count := fun c h => by cases h
  curSound := fun c h => by cases h
  queueSound := fun g h => by cases h
  actNonzero := fun h => by cases h
  haltClosed := fun _ => rfl
  noRecord := fun h => by cases h
  record := fun _ => by decide

/-- The window's first and last words, and the offsets where the write cases meet, are admitted. -/
theorem witness_Admitted :
    Admitted 0x00 4 ∧ Admitted 0x34 4 ∧ Admitted 0x38 4 ∧ Admitted 0x3C 4 ∧ Admitted 0x40 4 ∧ Admitted 0x5C 4 ∧
      Admitted 0x60 4 ∧ Admitted 0xFC 4 := by
  refine ⟨?_, ?_, ?_, ?_, ?_, ?_, ?_, ?_⟩ <;> exact ⟨rfl, rfl, by decide⟩

/-- ResetMoveAbandonsEverything. -/
theorem witness_ResetMove : (writingE.setPending [.reset]).pending = .reset :: [] := rfl

/-- EncodeOfDecode. -/
theorem witness_EncodeOfDecode : decode 0x00000FF7#32 = .ok (.wblk 3#2 15#4 true true) := by decide

/-- AtMostOneRowMatches. -/
theorem witness_AtMostOneRowMatches : (rows[6]'(by decide)).hits 0x00000FF7#32 = true := by decide

/-- IllegalWordsRaiseIllegalCmd: each ground, at a boundary. -/
theorem witness_IllegalWords :
    (opField 0x10#32).toNat = 0 ∧ 9 ≤ (opField 0x9#32).toNat ∧ 9 ≤ (opField 0xF#32).toNat ∧
      0x00001008#32 &&& unusedBits (opField 0x00001008#32) ≠ 0#32 ∧
      (activeE.setPending [wr 0 0x9#32]).Accepting :=
  ⟨by decide, by decide, by decide, by decide, ⟨rfl, rfl⟩⟩

/-- StepRunsTheDecodedCommand. -/
theorem witness_StepRuns :
    (activeE.setPending [wr 0 0x208#32]).pending = wr 0 0x208#32 :: [] ∧ decode 0x208#32 = .ok (.wbatch 2#4) :=
  ⟨rfl, by decide⟩

/-- WritesFollowTheCaseOfTheOffset: the clauses at the offsets where they meet. -/
theorem witness_Writes :
    nextWith (fun t => t.profile.program == 1#16) (step (activeE.setPending [wr 0x34 1#32])) = true ∧
      nextWith (fun t => t == activeE) (step (activeE.setPending [wr 0x38 1#32])) = true ∧
      nextWith (fun t => t == activeE) (step (activeE.setPending [wr 0x3C 1#32])) = true ∧
      nextWith (fun t => t.blk[(0 : Fin 8)] == 1#32) (step (activeE.setPending [wr 0x40 1#32])) = true ∧
      nextWith (fun t => t.blk[(7 : Fin 8)] == 1#32) (step (activeE.setPending [wr 0x5C 1#32])) = true ∧
      nextWith (fun t => t == activeE) (step (activeE.setPending [wr 0x60 1#32])) = true ∧
      nextWith (fun t => t == activeE) (step (activeE.setPending [wr 0x04 1#32])) = true ∧
      nextWith (fun t => t.data == 1#32) (step (activeE.setPending [wr 0x14 1#32])) = true ∧
      nextWith (fun t => t.password == 1#32) (step (activeE.setPending [wr 0x18 1#32])) = true ∧
      nextWith (fun t => t == haltedE) (step (haltedE.setPending [wr 0x14 1#32])) = true ∧
      nextWith (fun t => t == writingE.setOvr) (step (writingE.setPending [wr 0x14 1#32])) = true := by decide

/-- ReadsReturnTheRegisterAndChangeNothing, at the window's ends and at the block buffer's. -/
theorem witness_Reads :
    windowWord { activeE with blk := Vector.replicate 8 7#32 } 0x40 = 7#32 ∧
      windowWord { activeE with blk := Vector.replicate 8 7#32 } 0x5C = 7#32 ∧
      windowWord activeE 0x34 = 700#32 ∧ windowWord activeE 0x60 = 0#32 ∧ windowWord activeE 0xFC = 0#32 ∧
      windowWord activeE 0x04 = 9#32 := by decide

/-- IllFormedAccessesAreRefused and AccessesPastTheWindowStop: each form's hypotheses. -/
theorem witness_BadAccesses :
    (activeE.setPending [.access (.read 0 2)]).pending = .access (.read 0 2) :: [] ∧ (2 ≠ 4) ∧ (2 % 4 ≠ 0) ∧
      (activeE.setPending [rd 2]).pending = rd 2 :: [] ∧ (activeE.setPending [wr 2 0#32]).pending = wr 2 0#32 :: [] ∧
      (activeE.setPending [.access (.write 0 1 0#32)]).pending = .access (.write 0 1 0#32) :: [] ∧
      (256 % 4 = 0 ∧ (activeE.setPending [rd 256]).pending = rd 256 :: []) := by decide

/-- OverrunIsStickyAndNoFault, BusyWriteLeavesTheCommandRunning. -/
theorem witness_BusyWrite :
    (writingE.setPending [wr 0x14 1#32]).halt = false ∧ (writingE.setPending [wr 0x14 1#32]).cur ≠ none ∧
      writingE.setOvr.ovr = true ∧ (step writingE.setOvr matches .next _) ∧
      ∀ rest, writingE.setOvr.pending ≠ .reset :: rest :=
  ⟨rfl, by decide, rfl, rfl, fun _ h => by cases h⟩

/-- StartOpensTheSession. -/
theorem witness_Start :
    idleE.profile.waitTime ≠ 0#16 ∧ idleE.profile.startGap ≠ 0#16 ∧ idleE.profile.writeGap ≠ 0#16 ∧
      idleE.profile.data0 ≠ 0#16 ∧ idleE.profile.data1 ≠ 0#16 ∧ idleE.profile.program ≠ 0#16 := by decide

/-- OpcEmitsOneThenThePage, WblkEmitsTheBlockSequence, WbatchEmitsTheBatch, BatchSequenceOrder, BatchCounts: the largest legal
operands. BadOperandsFault: the smallest illegal ones. -/
theorem witness_operands :
    (1#2).toNat ≤ 1 ∧ (7#4).toNat ≤ 7 ∧ (8#4).toNat ≤ 8 ∧ 1 < (2#2).toNat ∧ 7 < (8#4).toNat ∧ 8 < (9#4).toNat := by
  decide

/-- BatchSequenceOrder: a block below the count. BatchReadsOnlyItsBlocks: buffers that agree below it. -/
theorem witness_Batch :
    (1 : Fin 8).val < (2#4).toNat ∧
      ∀ i : Fin 8, i.val < (2#4).toNat → ((Vector.replicate 8 0#32).set 2 5#32)[i] = activeE.blk[i] := by decide

/-- BadOperandsFault: a zero profile field (V61). -/
theorem witness_BadProfile :
    { idleE with profile := { profileE with program := 0#16 } }.Idle ∧ ({ profileE with program := 0#16 }).program = 0#16 :=
  ⟨⟨⟨rfl, rfl⟩, rfl⟩, rfl⟩

/-- SessionMisuseFaults: a command that is neither START nor STOP. -/
theorem witness_SessionMisuse : Instr.sgap ≠ .start ∧ Instr.sgap ≠ .stop := by decide

/-- FaultsArePrecise: a step that takes a fault (V52). -/
theorem witness_FaultsArePrecise :
    (activeE.withFetchWord 32 0x25).halt = false ∧ nextWith (fun t => t.halt) (step (activeE.withFetchWord 32 0x25)) = true := by
  decide

/-- HaltLastsUntilReset: a halted run of two steps. -/
theorem witness_HaltLasts :
    haltedE.halt = true ∧ (.reset ∉ (haltedE.setPending [wr 0 1#32, rd 8]).pending) ∧
      nextWith (fun t => t.halt) (Host.Core.run Sys2Proof.core 2 (haltedE.setPending [wr 0 1#32, rd 8])) = true := by decide

/-- TicksGiveTheEngineStep. -/
theorem witness_Ticks : writingE.cur = some ⟨⟨.cw, 448, ⟨.primBit, 0#4, 0#6⟩⟩, 448⟩ ∧ 1 ≤ 448 := by decide

/-- TicksGiveTheEngineStep: ticks of ACCEPT_LAT still to pass before the first of the segment. -/
theorem witness_Ticks_latency :
    ({ writingE with latency := 3 }).cur = some ⟨⟨.cw, 448, ⟨.primBit, 0#4, 0#6⟩⟩, 448⟩ ∧
      (State.tick^[3] { writingE with latency := 3 }).latency = 0 ∧
      (State.tick^[3] { writingE with latency := 3 }).cur = writingE.cur := by decide

/-- StatusWordBits: a state for each phase; and one without a segment. -/
theorem witness_StatusPhases :
    (∀ p ∈ [Phase.preWait, .sof, .opcode, .password, .lock, .data, .addr, .program, .postWait, .reset, .primBit, .primSgap,
        .finalReset],
      ({ activeE with cur := some ⟨⟨.cw, 8, ⟨p, 0#4, 0#6⟩⟩, 8⟩ }).cur.map (fun c : Current => c.seg.tag.phase) = some p) ∧
      activeE.cur = none := by decide

/-- FaultRegisterShowsTheCause: a fault taken, a reset that clears it, and a state in which none has been taken. -/
theorem witness_FaultRegister :
    nextWith (fun t => t.cause == .sessionActive && t.faultWord == 3#32) (step (activeE.withFetchWord 32 1)) = true ∧
      nextWith (fun t => t.cause != haltedE.cause) (step (haltedE.setPending [.reset])) = true ∧
      writingE.Inv ∧ writingE.halt = false :=
  ⟨by decide, by decide, witness_writing_inv, rfl⟩

/-- CommandsEmitTheirSymbols, EnvelopeReadsTheTrace: an accepted command. -/
theorem witness_CommandsEmit : nextWith (fun t => t.cur != none) (exec .sgap activeE) = true := by decide

/-- WaveformDependsOnlyOnOperands: the same session with other traces. -/
theorem witness_SameOperands :
    activeE.Active ∧ ({ activeE with events := [], ovr := true }).Active ∧
      nextWith (fun t => t.cur != none) (exec .sgap activeE) = true :=
  ⟨⟨⟨rfl, rfl⟩, rfl⟩, ⟨⟨rfl, rfl⟩, rfl⟩, by decide⟩

/-- InterleavingLeavesTheWaveform: a schedule with a lost STOP and a poll around the one engine step. -/
theorem witness_Interleaving :
    ([wr 0 2#32, .engine, rd 4] : List Move).count .engine ≤ writingE.queue.length ∧
      Admitted 0 4 ∧ Admitted 4 4 :=
  ⟨by decide, ⟨rfl, rfl, by decide⟩, ⟨rfl, rfl, by decide⟩⟩

/-- WaitIdleEnds. -/
theorem witness_WaitIdle : (writingE.setPending [.waitIdle]).pending = .waitIdle :: [] := rfl

/-- OperandRegistersReadOnlyByTheirCommands, ProfileRegistersReadOnlyByStart. -/
theorem witness_OtherCommands :
    (∀ p n l e, Instr.rstf ≠ .wblk p n l e) ∧ (∀ p n l, Instr.wblk 0#2 0#4 false false ≠ .wblk p n l true) ∧
      (∀ k, Instr.rstf ≠ .wbatch k) ∧ Instr.stop ≠ .start :=
  ⟨by simp, by simp, by simp, by decide⟩

/-- SessionChangesOnlyAtItsEvents: both directions happen. -/
theorem witness_SessionChanges :
    nextWith (fun t => t.session) (step (idleE.withFetchWord 32 1)) = true ∧
      nextWith (fun t => !t.session) (step (activeE.withFetchWord 32 2)) = true := by decide

/-- StepKeepsTheInvariant, ControlStateTransitions: a state of the invariant from which a step answers a next state. -/
theorem witness_StepKeeps : writingE.Inv ∧ nextWith (fun t => t.control == some .writing) (step writingE) = true :=
  ⟨witness_writing_inv, by decide⟩

end Sys2Proof.Tests
end

section
/-! Command words: a word that decodes to a command is that command's word (30_encoding.md section 1). -/

namespace Sys2Proof

theorem ofBool_getLsbD_eq_extractLsb' (w : Word) (i : Nat) : BitVec.ofBool (w.getLsbD i) = w.extractLsb' i 1 := by
  ext j hj
  obtain rfl : j = 0 := by omega
  simp

/-- A word with bits 31:13 zero is made up of its fields (30_encoding.md R81). -/
theorem packFields_fields {w : Word} (h : w.extractLsb' 13 19 = 0#19) :
    packFields (vField w) (nField w) (pwdenField w) (lockField w) (pageField w) (opField w) = w := by
  unfold packFields vField nField pwdenField lockField pageField opField
  simp (disch := omega) only [← h, ofBool_getLsbD_eq_extractLsb', BitVec.extractLsb'_append_extractLsb'_eq_extractLsb']
  exact BitVec.extractLsb'_eq_self

/-- A row that hits a word fixes every slice of it under the row's mask (30_encoding.md R84). -/
theorem Row.hits_slice {r : Row} {w : Word} (h : r.hits w = true) (i n : Nat) :
    w.extractLsb' i n &&& r.mask.extractLsb' i n = r.value.extractLsb' i n := by
  rw [← BitVec.extractLsb'_and, eq_of_beq h]

/-- A row that hits a word fixes every bit of it under the row's mask (30_encoding.md R84). -/
theorem Row.hits_bit {r : Row} {w : Word} (h : r.hits w = true) (i : Nat) :
    (w.getLsbD i && r.mask.getLsbD i) = r.value.getLsbD i := by
  rw [← BitVec.getLsbD_and, eq_of_beq h]

/-- Every row builds the command whose word it matches (30_encoding.md R83): the bits that the row does not fix are the
operands, and the row's value has the others. -/
theorem Row.encode_build {r : Row} {w : Word} (hr : r ∈ rows) (h : r.hits w = true) : encode (r.build w) = w := by
  have hreserved := Row.hits_slice h 13 19
  have hv : (vField w && _) = _ := Row.hits_bit h 12
  have hn : nField w &&& _ = _ := Row.hits_slice h 8 4
  have hpwden : (pwdenField w && _) = _ := Row.hits_bit h 7
  have hlock : (lockField w && _) = _ := Row.hits_bit h 6
  have hpage : pageField w &&& _ = _ := Row.hits_slice h 4 2
  have hop : opField w &&& _ = _ := Row.hits_slice h 0 4
  have full19 : ∀ x : BitVec 19, x &&& 0x7FFFF#19 = x := fun _ => BitVec.and_allOnes
  have full4 : ∀ x : BitVec 4, x &&& 0xF#4 = x := fun _ => BitVec.and_allOnes
  have full2 : ∀ x : BitVec 2, x &&& 0x3#2 = x := fun _ => BitVec.and_allOnes
  simp only [rows, List.mem_cons, List.not_mem_nil, or_false] at hr
  rcases hr with rfl | rfl | rfl | rfl | rfl | rfl | rfl | rfl <;>
  · simp [full19, full4, full2] at hreserved hv hn hpwden hlock hpage hop
    refine Eq.trans ?_ (packFields_fields hreserved)
    simp [encode, Instr.opcode, *]

/-- A word that decodes to a command was built by a row that hits it (30_encoding.md R84). -/
theorem decode_ok {w : Word} {i : Instr} (h : decode w = .ok i) : ∃ r ∈ rows, r.hits w = true ∧ r.build w = i := by
  unfold decode at h
  split at h
  · rename_i r hr
    exact ⟨r, List.mem_of_find?_eq_some hr, List.find?_some (p := fun r : Row => r.hits w) hr, Except.ok.inj h⟩
  · cases h

/-- A word that decodes to a command is that command's word. -/
theorem encode_of_decode {w : Word} {i : Instr} (h : decode w = .ok i) : encode i = w := by
  obtain ⟨r, hr, hit, rfl⟩ := decode_ok h
  exact Row.encode_build hr hit

end Sys2Proof
end

section
/-! What the steps do to the record of the last fault and to OVR (10_state.md R28, R31, R32). -/

namespace Sys2Proof.Machine

open Sys2Proof

variable {s t : State}

/-- No fault was taken or cleared from `s` to `t`, and OVR was not cleared. -/
structure State.KeepsRecord (s t : State) : Prop where
  halt : t.halt = s.halt
  cause : t.cause = s.cause
  faultCmd : t.faultCmd = s.faultCmd
  ovr : s.ovr = true → t.ovr = true

theorem State.KeepsRecord.refl (s : State) : s.KeepsRecord s := ⟨rfl, rfl, rfl, id⟩

theorem State.KeepsRecord.of_setPending {ms : List Move} (h : (s.setPending ms).KeepsRecord t) : s.KeepsRecord t :=
  ⟨h.halt, h.cause, h.faultCmd, h.ovr⟩

theorem State.engineStep_keepsRecord (s : State) : s.KeepsRecord s.engineStep := by
  rcases s.engineStep_cases with ⟨-, e⟩ | ⟨c, -, -, e⟩ | ⟨c, g, gs, -, -, e⟩ <;> rw [e]
  · exact .refl s
  · exact ⟨rfl, rfl, rfl, id⟩
  · exact ⟨rfl, rfl, rfl, id⟩

theorem State.tick_keepsRecord (s : State) : s.KeepsRecord s.tick := by
  rcases s.tick_cases with ⟨-, e⟩ | ⟨c, -, -, e⟩ | ⟨c, -, -, -, e⟩ | ⟨c, -, -, -, e⟩ <;> rw [e]
  · exact .refl s
  · exact ⟨rfl, rfl, rfl, id⟩
  · exact ⟨rfl, rfl, rfl, id⟩
  · exact s.engineStep_keepsRecord

theorem State.setOvr_keepsRecord (s : State) : s.KeepsRecord s.setOvr := ⟨rfl, rfl, rfl, fun _ => rfl⟩

/-- A command takes a fault, recording its own word, or keeps the record. -/
theorem exec_cases_record {i : Instr} (h : exec i s = .next t) :
    (s.Accepting ∧ ∃ c, c ≠ .noFault ∧ t = s.raiseFault c (encode i)) ∨ s.KeepsRecord t := by
  by_cases hh : s.halt = true
  · rw [exec_halted i hh] at h
    exact .inr (Host.Outcome.next.inj h ▸ .refl s)
  have hh : s.halt = false := by simpa using hh
  by_cases hc : s.cur = none
  · rcases exec_accepting i hh hc h with hf | ⟨-, -, -, rfl⟩ | ⟨-, rfl⟩ | ⟨-, -, -, rfl⟩
    · exact .inl ⟨⟨hh, hc⟩, hf⟩
    · exact .inr ⟨rfl, rfl, rfl, id⟩
    · exact .inr ⟨by simp, by simp, by simp, by simp⟩
    · exact .inr ⟨rfl, rfl, rfl, id⟩
  · rw [exec_busy i hh hc] at h
    exact .inr (Host.Outcome.next.inj h ▸ s.setOvr_keepsRecord)

/-- A write takes a fault, recording the word written to CMD, or keeps the record. -/
theorem memWrite_cases_record {off : Nat} {w : Word} (ha : off % 4 = 0) (hw : off < 256)
    (h : memWrite (BitVec.ofNat 8 off) w s = .next t) :
    (s.Accepting ∧ off = 0 ∧ ∃ c, c ≠ .noFault ∧ t = s.raiseFault c w) ∨ s.KeepsRecord t := by
  rcases memWrite_cases ha hw h with
    ⟨-, rfl⟩ | ⟨-, -, rfl⟩ | ⟨-, -, rfl⟩ | ⟨hh, hc, h0, rfl⟩ | ⟨-, -, h0, i, hi, he⟩
  · exact .inr (.refl t)
  · exact .inr s.setOvr_keepsRecord
  · exact .inr ⟨by simp, by simp, by simp, by simp⟩
  · exact .inl ⟨⟨hh, hc⟩, h0, .illegalCmd, by decide, rfl⟩
  · rcases exec_cases_record he with ⟨hacc, c, hne, e⟩ | hk
    · exact .inl ⟨hacc, h0, c, hne, encode_of_decode hi ▸ e⟩
    · exact .inr hk

/-- Every step is a reset, a fault taken at a CMD write, or keeps the record. -/
theorem step_cases_record (h : step s = .next t) :
    (∃ rest, s.pending = .reset :: rest) ∨
      (s.Accepting ∧ ∃ w rest c, s.pending = wr 0 w :: rest ∧ c ≠ .noFault ∧ t = (s.setPending rest).raiseFault c w) ∨
      s.KeepsRecord t := by
  rcases step_cases h with ⟨-, rfl⟩ | ⟨rest, -, rfl⟩ | ⟨rest, -, rfl⟩ | ⟨rest, hp, -⟩ | ⟨rest, ms, -, -, rfl⟩ |
    ⟨rest, off, -, -, -, rfl⟩ | ⟨rest, off, w, hp, ha, hw, hm⟩
  · exact .inr (.inr s.engineStep_keepsRecord)
  · exact .inr (.inr (.of_setPending (State.engineStep_keepsRecord _)))
  · exact .inr (.inr (.of_setPending (State.tick_keepsRecord _)))
  · exact .inl ⟨rest, hp⟩
  · exact .inr (.inr ⟨rfl, rfl, rfl, id⟩)
  · exact .inr (.inr ⟨rfl, rfl, rfl, id⟩)
  · rcases memWrite_cases_record ha hw hm with ⟨⟨hh, hc⟩, rfl, c, hne, e⟩ | hk
    · exact .inr (.inl ⟨⟨hh, hc⟩, w, rest, c, hp, hne, e⟩)
    · exact .inr (.inr hk.of_setPending)

/-- An admitted write to a busy block that is not halted sets OVR and does nothing else. -/
theorem step_write_busy {off : Nat} {w : Word} {rest : List Move} (ha : Admitted off 4) (hh : s.halt = false)
    (hc : s.cur ≠ none) (hp : s.pending = wr off w :: rest) : step s = .next (s.setPending rest).setOvr := by
  obtain ⟨f, hf⟩ := memWrite_gated (BitVec.ofNat 8 off) w
  have hb : (s.setPending rest).busy = true := State.busy_eq_true_iff.mpr hc
  rw [step_write hp ha.aligned ha.inWindow, hf, State.gated_busy (s := s.setPending rest) f hh hb]

/-- Settles O15: a busy block answers the write with `setOvr`, and every step but a reset keeps OVR. -/
theorem overrunIsStickyAndNoFault : Obligations.OverrunIsStickyAndNoFault := by
  unfold Obligations.OverrunIsStickyAndNoFault
  refine ⟨fun s off w rest ha hh hc hp => ⟨_, step_write_busy ha hh hc hp, rfl, hh, rfl⟩, fun s t ho hr h => ?_⟩
  rcases step_cases_record h with ⟨rest, hp⟩ | ⟨-, w, rest, c, -, -, rfl⟩ | hk
  · exact absurd hp (hr rest)
  · simpa using ho
  · exact hk.ovr ho

/-! ### The FAULT word -/

@[simp] theorem State.faultWord_high (s : State) : s.faultWord.extractLsb' 4 28 = 0#28 :=
  BitVec.extractLsb'_append_eq_left

@[simp] theorem State.faultWord_code (s : State) : s.faultWord.extractLsb' 0 4 = s.cause.code :=
  BitVec.extractLsb'_append_eq_right

/-- Settles O59: of the kinds of step, only fault entry and reset write CAUSE. -/
theorem faultRegisterShowsTheCause : Obligations.FaultRegisterShowsTheCause := by
  unfold Obligations.FaultRegisterShowsTheCause
  refine ⟨fun s => ⟨rfl, s.faultWord_high, fun ck hck hc => ?_⟩, fun s hs hh => ?_, fun s t h hne => ?_⟩
  · rw [s.faultWord_code, hc]
    clear hc
    revert ck
    decide
  · obtain ⟨hcause, -⟩ := hs.noRecord hh
    rw [State.faultWord, hcause]
    rfl
  · rcases step_cases_record h with hr | ⟨-, w, rest, c, hp, -, rfl⟩ | hk
    · exact .inr hr
    · exact .inl ⟨w, rest, hp, by rw [State.raiseFault_cause]⟩
    · exact absurd hk.cause hne

end Sys2Proof.Machine
end

section
/-! The STATUS and POS words, the output ports and the reset state (10_state.md R23 to R33, R45, R47). -/

namespace Sys2Proof.Machine

open Sys2Proof

variable (s : State)

/-! ### STATUS, slice by slice -/

/-- Bits 7:0 of STATUS (10_state.md R23 to R28, R30). -/
theorem State.status_flags :
    s.status.getLsbD 0 = s.session ∧ s.status.getLsbD 1 = s.busy ∧ s.status.getLsbD 2 = s.excl ∧
      s.status.getLsbD 3 = s.cwEn ∧ s.status.getLsbD 4 = s.halt ∧ s.status.getLsbD 5 = s.ovr ∧
      s.status.getLsbD 6 = false ∧ s.status.getLsbD 7 = false := by
  unfold State.status
  refine ⟨?_, ?_, ?_, ?_, ?_, ?_, ?_, ?_⟩ <;>
  · repeat rw [BitVec.getLsbD_append]
    simp

@[simp] theorem State.status_phase : s.status.extractLsb' 8 4 = s.phaseCode := by
  unfold State.status
  repeat rw [BitVec.extractLsb'_append_eq_of_le (by decide)]
  exact BitVec.extractLsb'_append_eq_right

@[simp] theorem State.status_high : s.status.extractLsb' 12 20 = 0#20 := by
  unfold State.status
  repeat rw [BitVec.extractLsb'_append_eq_of_le (by decide)]
  exact BitVec.extractLsb'_eq_self

theorem State.phaseCode_idle {s : State} (h : s.cur = none) : s.phaseCode = 0#4 := by
  simp [State.phaseCode, h]

theorem State.phaseCode_current {s : State} {c : Current} (h : s.cur = some c) :
    s.phaseCode = c.seg.tag.phase.code := by
  simp [State.phaseCode, h]

/-- Settles O51, slice by slice. -/
theorem statusWordBits : Obligations.StatusWordBits := by
  unfold Obligations.StatusWordBits
  intro s
  obtain ⟨hsession, hbusy, hexcl, hcw, hhalt, hovr, h6, h7⟩ := s.status_flags
  refine ⟨hsession, hbusy, hexcl.trans hbusy.symm, rfl, hcw, hhalt, hovr, h6, h7, s.status_phase, s.status_high,
    fun h => ?_, fun c h pk hpk hphase => ?_⟩
  · rw [s.status_phase, State.phaseCode_idle h]
  · rw [s.status_phase, State.phaseCode_current h, hphase]
    clear hphase
    revert pk
    decide

/-! ### POS -/

theorem State.pos_idle {s : State} (h : s.cur = none) : s.pos = 0#32 := by
  simp [State.pos, h]

theorem State.pos_current {s : State} {c : Current} (h : s.cur = some c) :
    s.pos = 0#20 ++ c.seg.tag.blkIdx ++ 0#2 ++ c.seg.tag.bitIdx := by
  simp [State.pos, h]

/-- The slices of a POS word with BLKIDX `b` and BITIDX `j`. -/
theorem pos_slices (b : BitVec 4) (j : BitVec 6) :
    (0#20 ++ b ++ 0#2 ++ j : Word).extractLsb' 0 6 = j ∧ (0#20 ++ b ++ 0#2 ++ j : Word).extractLsb' 6 2 = 0#2 ∧
      (0#20 ++ b ++ 0#2 ++ j : Word).extractLsb' 8 4 = b ∧ (0#20 ++ b ++ 0#2 ++ j : Word).extractLsb' 12 20 = 0#20 := by
  refine ⟨BitVec.extractLsb'_append_eq_right, ?_, ?_, ?_⟩ <;> rw [BitVec.extractLsb'_append_eq_of_le (by decide)]
  · exact BitVec.extractLsb'_append_eq_right
  · rw [BitVec.extractLsb'_append_eq_of_le (by decide)]
    exact BitVec.extractLsb'_append_eq_right
  · rw [BitVec.extractLsb'_append_eq_of_le (by decide)]
    exact BitVec.extractLsb'_append_eq_left

/-- Settles O52: the ranges are those of the sound segments of the invariant. -/
theorem posShowsTheCurrentTag : Obligations.PosShowsTheCurrentTag := by
  unfold Obligations.PosShowsTheCurrentTag
  intro s hs
  cases hc : s.cur with
  | none => simp [State.pos_idle hc]
  | some c =>
    obtain ⟨hbit, hgap, hblk, hhigh⟩ := pos_slices c.seg.tag.blkIdx c.seg.tag.bitIdx
    have hsound := hs.curSound c hc
    rw [State.pos_current hc, hbit, hgap, hblk, hhigh]
    simpa using ⟨hsound.bit, hsound.blk⟩

/-! ### Output ports -/

/-- Port `cw_en` is on in a session that is not in a gap. -/
theorem State.cwEn_iff : s.cwEn = true ↔ s.session = true ∧ ∀ c, s.cur = some c → c.seg.level = .cw := by
  cases hc : s.cur <;> simp [State.cwEn, hc]

/-- Settles O53. -/
theorem outputPortsFollowTheState : Obligations.OutputPortsFollowTheState := by
  unfold Obligations.OutputPortsFollowTheState
  exact fun s => ⟨s.cwEn_iff, fun h => if_pos h, fun h => if_neg (by simp [h]), rfl, rfl, s.busy_eq_true_iff, rfl⟩

/-! ### Reset -/

/-- Every register of the window reads 0 after reset (10_state.md R47). -/
theorem State.reset_readReg (r : Reg) : State.reset.readReg r = 0#32 := by
  cases r with
  | profile f => cases f <;> rfl
  | blk i => exact Vector.getElem_replicate i.isLt
  | cmd | status | fault | faultCmd | pos | data | password | reserved => rfl

/-- Settles O1: the reset state is fixed, so each clause computes. -/
theorem resetLeavesEveryElementAtItsValue : Obligations.ResetLeavesEveryElementAtItsValue := by
  unfold Obligations.ResetLeavesEveryElementAtItsValue
  exact ⟨State.reset_readReg, rfl, rfl, rfl, rfl, rfl, rfl, rfl, rfl, rfl, rfl, rfl, rfl, rfl,
    fun i => State.reset_readReg (.blk i), rfl, rfl, rfl, rfl, rfl, rfl⟩

end Sys2Proof.Machine
end

section
/-! The host port's reads and writes, offset by offset (20_memory.md R61, R65, R66). -/

namespace Sys2Proof.Machine

open Sys2Proof

variable {s : State} {off : Nat} {w : Word} {rest : List Move}

/-! ### The offsets of the window -/

/-- The offsets at which no register stands (10_state.md R21, R39). -/
abbrev ReservedOffset (off : Nat) : Prop := off = 0x1C ∨ off = 0x38 ∨ off = 0x3C ∨ 0x60 ≤ off

/-- The offsets of the registers outside the block buffer (10_state.md R21). -/
def singleOffsets : List Nat := [0x00, 0x04, 0x08, 0x0C, 0x10, 0x14, 0x18, 0x20, 0x24, 0x28, 0x2C, 0x30, 0x34]

theorem Admitted.exists_slot (ha : Admitted off 4) : ∃ k < 64, off = 4 * k := by
  have haligned := ha.aligned
  have hwindow := ha.inWindow
  exact ⟨off / 4, by omega, by omega⟩

theorem Admitted.offset_cases (ha : Admitted off 4) :
    off ∈ singleOffsets ∨ (∃ i : Fin 8, off = 0x40 + 4 * i.val) ∨ ReservedOffset off := by
  have slots : ∀ k < 64,
      4 * k ∈ singleOffsets ∨ (∃ i : Fin 8, 4 * k = 0x40 + 4 * i.val) ∨ ReservedOffset (4 * k) := by decide
  obtain ⟨k, hk, rfl⟩ := ha.exists_slot
  exact slots k hk

/-! ### The register at an offset -/

/-- The register that an admitted access at byte offset `off` selects (20_memory.md R61). -/
def regAtOffset (off : Nat) : Reg := regAt (slotOf (BitVec.ofNat 8 off))

theorem regAtOffset_blk (i : Fin 8) : regAtOffset (0x40 + 4 * i.val) = .blk i := by
  revert i
  decide

theorem regAtOffset_reserved (ha : Admitted off 4) (h : ReservedOffset off) : regAtOffset off = .reserved := by
  have slots : ∀ k < 64, ReservedOffset (4 * k) → regAtOffset (4 * k) = .reserved := by decide
  obtain ⟨k, hk, rfl⟩ := ha.exists_slot
  exact slots k hk h

/-! ### Writes -/

/-- A halted block discards an admitted write. -/
theorem step_write_halted (ha : Admitted off 4) (hp : s.pending = wr off w :: rest) (hh : s.halt = true) :
    step s = .next (s.setPending rest) := by
  obtain ⟨f, hf⟩ := memWrite_gated (BitVec.ofNat 8 off) w
  rw [step_write hp ha.aligned ha.inWindow, hf, State.gated_halted (s := s.setPending rest) f hh]

theorem step_command_ok {i : Instr} (hp : s.pending = wr 0 w :: rest) (hd : decode w = .ok i) :
    step s = exec i (s.setPending rest) := by
  rw [step_command hp, submitWord, hd]

theorem step_command_error {e : Illegal} (hp : s.pending = wr 0 w :: rest) (hs : s.Accepting)
    (hd : decode w = .error e) : step s = .next ((s.setPending rest).raiseFault .illegalCmd w) := by
  rw [step_command hp, submitWord, hd]
  exact congrArg _ (State.gated_accepting (s := s.setPending rest) _ hs.running hs.quiet)

/-- An admitted write to a register other than CMD is stored when the block examines commands. -/
theorem step_write_store {r : Reg} (ha : Admitted off 4) (hp : s.pending = wr off w :: rest) (hs : s.Accepting)
    (hr : regAtOffset off = r) (hne : r ≠ .cmd) : step s = .next ((s.setPending rest).storeReg r w) := by
  subst hr
  rw [step_write hp ha.aligned ha.inWindow, memWrite_store hne]
  exact congrArg _ (State.gated_accepting (s := s.setPending rest) _ hs.running hs.quiet)

/-- A profile register keeps bits 15:0 of the word written. -/
theorem step_write_profile (f : ProfileField) (ha : Admitted off 4) (hp : s.pending = wr off w :: rest)
    (hs : s.Accepting) (hr : regAtOffset off = .profile f) :
    step s = .next { s with pending := rest, profile := s.profile.set f (w.extractLsb' 0 16) } := by
  rw [step_write_store ha hp hs hr nofun, ← BitVec.setWidth_eq_extractLsb' (by decide)]
  rfl

/-- A write to a read-only or reserved offset changes nothing. -/
theorem step_write_readOnly (ha : Admitted off 4) (hp : s.pending = wr off w :: rest) (hs : s.Accepting)
    (h : off = 0x04 ∨ off = 0x08 ∨ off = 0x0C ∨ off = 0x10 ∨ ReservedOffset off) :
    step s = .next (s.setPending rest) := by
  rcases h with rfl | rfl | rfl | rfl | hreserved
  · exact step_write_store (r := .status) ha hp hs rfl nofun
  · exact step_write_store (r := .fault) ha hp hs rfl nofun
  · exact step_write_store (r := .faultCmd) ha hp hs rfl nofun
  · exact step_write_store (r := .pos) ha hp hs rfl nofun
  · exact step_write_store ha hp hs (regAtOffset_reserved ha hreserved) nofun

/-- Settles O9: the two gates first, then the register at the offset. -/
theorem writesFollowTheCaseOfTheOffset : Obligations.WritesFollowTheCaseOfTheOffset := by
  unfold Obligations.WritesFollowTheCaseOfTheOffset
  intro s off w rest ha hp
  refine ⟨step_write_halted ha hp, fun hh hc => step_write_busy ha hh hc hp, fun hs =>
    ⟨?command, ?data, ?password, ?waitTime, ?startGap, ?writeGap, ?data0, ?data1, ?program, ?block,
      step_write_readOnly ha hp hs⟩⟩
  case command =>
    rintro rfl
    exact ⟨fun i hd => step_command_ok hp hd, fun e hd => step_command_error hp hs hd⟩
  case data => rintro rfl; exact step_write_store (r := .data) ha hp hs rfl nofun
  case password => rintro rfl; exact step_write_store (r := .password) ha hp hs rfl nofun
  case waitTime => rintro rfl; exact step_write_profile .waitTime ha hp hs rfl
  case startGap => rintro rfl; exact step_write_profile .startGap ha hp hs rfl
  case writeGap => rintro rfl; exact step_write_profile .writeGap ha hp hs rfl
  case data0 => rintro rfl; exact step_write_profile .data0 ha hp hs rfl
  case data1 => rintro rfl; exact step_write_profile .data1 ha hp hs rfl
  case program => rintro rfl; exact step_write_profile .program ha hp hs rfl
  case block => rintro i rfl; exact step_write_store ha hp hs (regAtOffset_blk i) nofun

/-! ### Reads -/

theorem windowWord_blk (s : State) (i : Fin 8) : windowWord s (0x40 + 4 * i.val) = s.blk[i] := by
  fin_cases i <;> rfl

theorem windowWord_reserved (s : State) (h : ReservedOffset off) : windowWord s off = 0#32 := by
  unfold windowWord
  repeat rw [if_neg (by omega)]

/-- The word that the register map gives is the value of the register selected. -/
theorem readReg_regAtOffset (s : State) (ha : Admitted off 4) : s.readReg (regAtOffset off) = windowWord s off := by
  rcases ha.offset_cases with hsingle | ⟨i, rfl⟩ | hreserved
  · simp only [singleOffsets, List.mem_cons, List.not_mem_nil, or_false] at hsingle
    rcases hsingle with rfl | rfl | rfl | rfl | rfl | rfl | rfl | rfl | rfl | rfl | rfl | rfl | rfl <;> rfl
  · rw [regAtOffset_blk, windowWord_blk]
    rfl
  · rw [regAtOffset_reserved ha hreserved, windowWord_reserved s hreserved]
    rfl

/-- An admitted read records the value of the register at its offset. -/
theorem step_read (ha : Admitted off 4) (hp : s.pending = rd off :: rest) :
    step s = .next ((s.setPending rest).addRead (s.readReg (regAtOffset off))) := by
  rw [step_next_move hp]
  exact checkedAccess_admitted (fun o => memRead o (s.setPending rest)) ha.aligned ha.inWindow

/-- Settles O10: whatever the state, the word is that of the register map. -/
theorem readsReturnTheRegisterAndChangeNothing : Obligations.ReadsReturnTheRegisterAndChangeNothing := by
  unfold Obligations.ReadsReturnTheRegisterAndChangeNothing
  intro s off rest ha hp
  rw [step_read ha hp, readReg_regAtOffset s ha]
  rfl

end Sys2Proof.Machine
end

section
/-! Illegal words: a row of R83 asks for its OP, with every reserved and every unused bit 0 (30_encoding.md R86). -/

namespace Sys2Proof.Machine

open Sys2Proof

variable {w : Word}

/-- OP names one of the eight commands, and the bits that the command does not use are 0 (30_encoding.md R83). -/
def WellEncoded (w : Word) : Prop := opNamed (opField w) = true ∧ w &&& unusedBits (opField w) = 0#32

theorem and_opMask (w : Word) : w &&& 0xF#32 = (opField w).setWidth 32 := by
  have hmod : w.toNat &&& 15 = w.toNat % 16 := Nat.and_two_pow_sub_one_eq_mod w.toNat 4
  refine BitVec.eq_of_toNat_eq ?_
  simp [opField, hmod]
  omega

/-- A row's mask is OP and the bits that its command does not use, and its value is that command's OP with the other bits
0 (30_encoding.md R81, R83). -/
theorem row_layout : ∀ r ∈ rows, opNamed (opField r.value) = true ∧
    r.mask = unusedBits (opField r.value) ||| 0xF#32 ∧ r.value = (opField r.value).setWidth 32 := by
  decide

theorem exists_row_of_opNamed : ∀ op : BitVec 4, opNamed op = true → ∃ r ∈ rows, opField r.value = op := by
  decide

/-- Every mask covers bits 3:0 (30_encoding.md R84). -/
theorem opField_of_hits {r : Row} (hr : r ∈ rows) (h : r.hits w = true) : opField w = opField r.value := by
  have hmask : ∀ r ∈ rows, r.mask.extractLsb' 0 4 = BitVec.allOnes 4 := by decide
  have hop := Row.hits_slice h 0 4
  rwa [hmask r hr, BitVec.and_allOnes] at hop

theorem unused_of_hits {r : Row} (hr : r ∈ rows) (h : r.hits w = true) :
    w &&& unusedBits (opField r.value) = 0#32 := by
  have hmask : ∀ r ∈ rows, r.mask &&& unusedBits (opField r.value) = unusedBits (opField r.value) := by decide
  have hvalue : ∀ r ∈ rows, r.value &&& unusedBits (opField r.value) = 0#32 := by decide
  rw [← hmask r hr, ← BitVec.and_assoc, eq_of_beq h, hvalue r hr]

theorem hits_of_fields {r : Row} (hr : r ∈ rows) (hop : opField w = opField r.value)
    (hunused : w &&& unusedBits (opField r.value) = 0#32) : r.hits w = true := by
  obtain ⟨-, hmask, hvalue⟩ := row_layout r hr
  refine beq_iff_eq.mpr ?_
  calc w &&& r.mask
    _ = w &&& unusedBits (opField r.value) ||| w &&& 0xF#32 := by rw [hmask, BitVec.and_or_distrib_left]
    _ = r.value := by rw [hunused, and_opMask, hop, ← hvalue, BitVec.zero_or]

theorem exists_row_hits_iff : (∃ r ∈ rows, r.hits w = true) ↔ WellEncoded w := by
  constructor
  · rintro ⟨r, hr, h⟩
    have hop := opField_of_hits hr h
    exact ⟨hop ▸ (row_layout r hr).1, hop ▸ unused_of_hits hr h⟩
  · rintro ⟨hnamed, hunused⟩
    obtain ⟨r, hr, hop⟩ := exists_row_of_opNamed _ hnamed
    exact ⟨r, hr, hits_of_fields hr hop.symm (hop ▸ hunused)⟩

/-- A word is Illegal exactly when no row hits it (30_encoding.md R84). -/
theorem decode_error_iff : (∃ e, decode w = .error e) ↔ ¬ ∃ r ∈ rows, r.hits w = true := by
  unfold decode
  cases hfind : rows.find? (fun r => r.hits w) with
  | none => simpa using List.find?_eq_none.mp hfind
  | some r =>
    have hhit := List.find?_some (p := fun r : Row => r.hits w) hfind
    simpa using ⟨r, List.mem_of_find?_eq_some hfind, hhit⟩

theorem not_opNamed_iff (op : BitVec 4) : ¬ opNamed op = true ↔ op.toNat = 0 ∨ 9 ≤ op.toNat := by
  simp [opNamed]
  omega

theorem not_wellEncoded_iff : ¬ WellEncoded w ↔
    ((opField w).toNat = 0 ∨ 9 ≤ (opField w).toNat ∨ w &&& unusedBits (opField w) ≠ 0#32) := by
  rw [WellEncoded, not_and_or, not_opNamed_iff, or_assoc]

theorem illegal_iff : (∃ e, decode w = .error e) ↔
    ((opField w).toNat = 0 ∨ 9 ≤ (opField w).toNat ∨ w &&& unusedBits (opField w) ≠ 0#32) := by
  rw [decode_error_iff, exists_row_hits_iff, not_wellEncoded_iff]

/-- Settles O6: a word is Illegal when no row hits it, and the rows between them hit the well encoded words. -/
theorem illegalWordsRaiseIllegalCmd : Obligations.IllegalWordsRaiseIllegalCmd := by
  unfold Obligations.IllegalWordsRaiseIllegalCmd
  refine ⟨fun w => illegal_iff, fun s w rest hs hp hw => ?_⟩
  obtain ⟨e, he⟩ := illegal_iff.mpr hw
  exact step_command_error hp hs he

end Sys2Proof.Machine
end

section
/-! The block write as emitted: how symbols expand into segments, and `blockseq` position by position
(40_pulse_gap.md R100 to R103, 41_block_write.md R130 to R137). -/

namespace Sys2Proof.Machine

/-! ### Counting symbols -/

theorem countSymbol_cons (y : Symbol) (e : Emission) (es : List Emission) :
    countSymbol y (e :: es) = countSymbol y es + if e.1 == y then 1 else 0 := List.countP_cons

theorem countBits_cons (e : Emission) (es : List Emission) :
    countBits (e :: es) = countBits es + if e.1.isBit then 1 else 0 := List.countP_cons

@[simp] theorem countSymbol_append (y : Symbol) (es fs : List Emission) :
    countSymbol y (es ++ fs) = countSymbol y es + countSymbol y fs := List.countP_append

@[simp] theorem countBits_append (es fs : List Emission) : countBits (es ++ fs) = countBits es + countBits fs :=
  List.countP_append

@[simp] theorem countGaps_append (gs hs : List Segment) : countGaps (gs ++ hs) = countGaps gs + countGaps hs :=
  List.countP_append

@[simp] theorem Symbol.isBit_ofBit (v : Bool) : (Symbol.ofBit v).isBit = true := by cases v <;> rfl

@[simp] theorem countBits_ofBit (v : Bool) (tag : Tag) : countBits [(Symbol.ofBit v, tag)] = 1 := by cases v <;> rfl

@[simp] theorem countBits_bitRun {n : Nat} (ph : Phase) (b : BitVec 4) (v : BitVec n) :
    countBits (bitRun ph b v) = n := by
  have hall : ∀ e ∈ bitRun ph b v, e.1.isBit = true := by simp [bitRun]
  exact (List.countP_eq_length.mpr hall).trans (bitRun_length ph b v)

/-- A list of bits has no symbol of another kind. -/
theorem countSymbol_eq_zero {y : Symbol} {es : List Emission} (hall : countBits es = es.length)
    (hy : y.isBit = false) : countSymbol y es = 0 := by
  refine List.countP_eq_zero.mpr fun e he heq => ?_
  have hbit : e.1.isBit = true := List.countP_eq_length.mp hall e he
  rw [eq_of_beq heq, hy] at hbit
  exact absurd hbit (by decide)

/-! ### The segments of an expansion (40_pulse_gap.md R100 to R103) -/

/-- Every symbol has one segment, and a bit a second one. -/
theorem expand_length (a : Profile) (es : List Emission) : (expand a es).length = es.length + countBits es := by
  induction es with
  | nil => rfl
  | cons e es ih =>
    have hparts : (segmentsOf a e).length = 1 + if e.1.isBit then 1 else 0 := by
      obtain ⟨y, tag⟩ := e
      cases y <;> rfl
    rw [expand_cons, List.length_append, ih, hparts, List.length_cons, countBits_cons]
    omega

/-- A bit ends with a GAP, and S is one. -/
theorem countGaps_expand (a : Profile) (es : List Emission) :
    countGaps (expand a es) = countBits es + countSymbol .s es := by
  induction es with
  | nil => rfl
  | cons e es ih =>
    have hparts : countGaps (segmentsOf a e) = (if e.1.isBit then 1 else 0) + if e.1 == .s then 1 else 0 := by
      obtain ⟨y, tag⟩ := e
      cases y <;> rfl
    rw [expand_cons, countGaps_append, ih, hparts, countBits_cons, countSymbol_cons]
    omega

/-- An expansion lasts as long as its symbols together, counted by kind. -/
theorem totalDuration_expand (a : Profile) (es : List Emission) :
    totalDuration (expand a es) =
      countSymbol .w es * dur a.waitTime + countSymbol .s es * dur a.startGap + countSymbol .p es * dur a.program +
        countSymbol .b1 es * (dur a.data1 + dur a.writeGap) + countSymbol .b0 es * (dur a.data0 + dur a.writeGap) := by
  induction es with
  | nil => simp [totalDuration, countSymbol]
  | cons e es ih =>
    obtain ⟨y, tag⟩ := e
    rw [expand_cons, totalDuration_append, ih]
    cases y <;> simp [countSymbol_cons, segmentsOf, Symbol.parts, totalDuration] <;> ring

/-! ### The parts of `blockseq` (41_block_write.md R130) -/

/-- Steps 1 to 3 of `blockseq`. -/
def blockOpening (page : Bool) (b : BitVec 4) : List Emission :=
  [(.w, ⟨.preWait, b, 0#6⟩), (.s, ⟨.sof, b, 0#6⟩)] ++ opcodeFrame page b

/-- Step 4 of `blockseq`: the bits of the password, if there is one. -/
def passwordRun (b : BitVec 4) (pwd : Option Word) : List Emission := pwd.elim [] (bitRun .password b)

/-- Steps 8 to 10 of `blockseq`. -/
def blockClosing (b : BitVec 4) : List Emission :=
  [(.p, ⟨.program, b, 0#6⟩), (.w, ⟨.postWait, b, 0#6⟩)] ++ resetFrame .reset b

/-! A list whose rest from position `i` on is known, read at and after the first part of that rest. -/

theorem drop_of_drop_append {α : Type} {l x y : List α} {i k : Nat} (h : l.drop i = x ++ y) (hk : i + x.length = k) :
    l.drop k = y := by
  rw [← hk, ← List.drop_drop, h, List.drop_left]

theorem getElem?_of_drop_append {α : Type} {l x y : List α} {i j : Nat} (h : l.drop i = x ++ y) (hj : j < x.length) :
    l[i + j]? = x[j]? := by
  rw [← List.getElem?_drop, h, List.getElem?_append_left hj]

section
variable {page : Bool} {addr : BitVec 3} {lock : Bool} {pwd : Option Word} {data : Word} {b : BitVec 4}

@[simp] theorem passwordRun_length : (passwordRun b pwd).length = if pwd.isSome then 32 else 0 := by
  cases pwd <;> simp [passwordRun]

theorem blockSeq_eq_append :
    blockSeq page addr lock pwd data b =
      blockOpening page b ++ (passwordRun b pwd ++ ([(Symbol.ofBit lock, ⟨.lock, b, 0#6⟩)] ++
        (bitRun .data b data ++ (bitRun .addr b addr ++ blockClosing b)))) := by
  cases pwd <;> simp [blockSeq, blockOpening, blockClosing, passwordRun]

/-! The rest of `blockseq` from the first symbol of a part on: the part, then the parts after it. -/

theorem blockSeq_drop_opening :
    (blockSeq page addr lock pwd data b).drop 4 =
      passwordRun b pwd ++ ([(Symbol.ofBit lock, ⟨.lock, b, 0#6⟩)] ++
        (bitRun .data b data ++ (bitRun .addr b addr ++ blockClosing b))) := by
  rw [blockSeq_eq_append]
  rfl

theorem blockSeq_drop_password :
    (blockSeq page addr lock pwd data b).drop (4 + (passwordRun b pwd).length) =
      [(Symbol.ofBit lock, ⟨.lock, b, 0#6⟩)] ++ (bitRun .data b data ++ (bitRun .addr b addr ++ blockClosing b)) :=
  drop_of_drop_append blockSeq_drop_opening rfl

theorem blockSeq_drop_lock :
    (blockSeq page addr lock pwd data b).drop (5 + (passwordRun b pwd).length) =
      bitRun .data b data ++ (bitRun .addr b addr ++ blockClosing b) :=
  drop_of_drop_append blockSeq_drop_password (by rw [List.length_singleton]; omega)

theorem blockSeq_drop_data :
    (blockSeq page addr lock pwd data b).drop (37 + (passwordRun b pwd).length) =
      bitRun .addr b addr ++ blockClosing b :=
  drop_of_drop_append blockSeq_drop_lock (by rw [bitRun_length]; omega)

theorem blockSeq_drop_addr :
    (blockSeq page addr lock pwd data b).drop (40 + (passwordRun b pwd).length) = blockClosing b :=
  drop_of_drop_append blockSeq_drop_data (by rw [bitRun_length]; omega)

theorem blockSeq_getElem?_opening {i : Nat} (hi : i < 4) :
    (blockSeq page addr lock pwd data b)[i]? = (blockOpening page b)[i]? := by
  rw [blockSeq_eq_append, List.getElem?_append_left hi]

theorem blockSeq_getElem?_password (w : Word) {j : Nat} (hj : j < 32) :
    (blockSeq page addr lock (some w) data b)[4 + j]? =
      some (Symbol.ofBit (w.getLsbD (31 - j)), ⟨.password, b, BitVec.ofNat 6 j⟩) :=
  (getElem?_of_drop_append blockSeq_drop_opening (by simpa using hj)).trans (bitRun_getElem? _ _ w hj)

theorem blockSeq_getElem?_lock :
    (blockSeq page addr lock pwd data b)[4 + (passwordRun b pwd).length]? =
      some (Symbol.ofBit lock, ⟨.lock, b, 0#6⟩) :=
  getElem?_of_drop_append blockSeq_drop_password (j := 0) Nat.one_pos

theorem blockSeq_getElem?_data {j : Nat} (hj : j < 32) :
    (blockSeq page addr lock pwd data b)[5 + (passwordRun b pwd).length + j]? =
      some (Symbol.ofBit (data.getLsbD (31 - j)), ⟨.data, b, BitVec.ofNat 6 j⟩) :=
  (getElem?_of_drop_append blockSeq_drop_lock (by simpa using hj)).trans (bitRun_getElem? _ _ data hj)

theorem blockSeq_getElem?_addr {j : Nat} (hj : j < 3) :
    (blockSeq page addr lock pwd data b)[37 + (passwordRun b pwd).length + j]? =
      some (Symbol.ofBit (addr.getLsbD (2 - j)), ⟨.addr, b, BitVec.ofNat 6 j⟩) :=
  (getElem?_of_drop_append blockSeq_drop_data (by simpa using hj)).trans (bitRun_getElem? _ _ addr hj)

theorem blockSeq_getElem?_closing (j : Nat) :
    (blockSeq page addr lock pwd data b)[40 + j + (passwordRun b pwd).length]? = (blockClosing b)[j]? := by
  rw [Nat.add_right_comm, ← List.getElem?_drop, blockSeq_drop_addr]

theorem blockSeq_reverse_getElem? {j : Nat} (hj : j < 5) :
    (blockSeq page addr lock pwd data b).reverse[j]? = (blockClosing b).reverse[j]? := by
  rw [← List.take_append_drop (40 + (passwordRun b pwd).length) (blockSeq page addr lock pwd data b),
    blockSeq_drop_addr, List.reverse_append, List.getElem?_append_left hj]

/-! ### The counts of `blockseq` (41_block_write.md R136) -/

@[simp] theorem countBits_passwordRun : countBits (passwordRun b pwd) = (passwordRun b pwd).length := by
  cases pwd with
  | none => rfl
  | some w => simp [passwordRun]

theorem countBits_opcodeFrame : countBits (opcodeFrame page b) = 2 := by cases page <;> rfl

theorem countBits_blockOpening : countBits (blockOpening page b) = 2 := by
  rw [blockOpening, countBits_append, countBits_opcodeFrame]
  rfl

theorem countBits_blockClosing : countBits (blockClosing b) = 2 := rfl

theorem countBits_blockSeq : countBits (blockSeq page addr lock pwd data b) = 40 + (passwordRun b pwd).length := by
  rw [blockSeq_eq_append]
  simp only [countBits_append, countBits_blockOpening, countBits_passwordRun, countBits_ofBit,
    countBits_bitRun, countBits_blockClosing]
  omega

/-- The bits before step 8 are all but the two of the reset frame. -/
theorem countBits_blockSeq_take :
    countBits ((blockSeq page addr lock pwd data b).take (40 + (passwordRun b pwd).length)) =
      38 + (passwordRun b pwd).length := by
  have hsplit := congrArg countBits
    (List.take_append_drop (40 + (passwordRun b pwd).length) (blockSeq page addr lock pwd data b))
  rw [countBits_append, blockSeq_drop_addr, countBits_blockClosing, countBits_blockSeq] at hsplit
  omega

/-- Apart from its bits, `blockseq` is W, S, P, W, S. -/
theorem countSymbol_blockSeq {y : Symbol} (hy : y.isBit = false) :
    countSymbol y (blockSeq page addr lock pwd data b) = [Symbol.w, .s, .p, .w, .s].count y := by
  have hopening : countSymbol y (blockOpening page b) = [Symbol.w, .s].count y := by
    rw [blockOpening, countSymbol_append, countSymbol_eq_zero countBits_opcodeFrame hy]
    cases y <;> rfl
  have hclosing : countSymbol y (blockClosing b) = [Symbol.p, .w, .s].count y := by
    match y, hy with
    | .w, _ | .p, _ | .s, _ => rfl
  rw [blockSeq_eq_append]
  simp only [countSymbol_append, countSymbol_eq_zero countBits_passwordRun hy,
    countSymbol_eq_zero (countBits_ofBit lock _) hy,
    countSymbol_eq_zero ((countBits_bitRun ..).trans (bitRun_length ..).symm) hy, Nat.zero_add, hopening, hclosing]
  exact (List.count_append (l₁ := [Symbol.w, .s])).symm

@[simp] theorem countSymbol_w_blockSeq : countSymbol .w (blockSeq page addr lock pwd data b) = 2 :=
  countSymbol_blockSeq rfl

@[simp] theorem countSymbol_s_blockSeq : countSymbol .s (blockSeq page addr lock pwd data b) = 2 :=
  countSymbol_blockSeq rfl

@[simp] theorem countSymbol_p_blockSeq : countSymbol .p (blockSeq page addr lock pwd data b) = 1 :=
  countSymbol_blockSeq rfl

end

/-! ### The statements -/

/-- Settles O25: each part of `blockseq` is read off the rest of the sequence that begins with it. -/
theorem blockSequenceOrder : Obligations.BlockSequenceOrder := by
  unfold Obligations.BlockSequenceOrder
  intro page addr lock pwd data b m hm
  have hlength : m = (passwordRun b pwd).length := by cases pwd <;> simp [hm]
  subst hlength
  refine ⟨by simp, blockSeq_getElem?_opening (by decide), blockSeq_getElem?_opening (by decide),
    blockSeq_getElem?_opening (by decide), blockSeq_getElem?_opening (by decide), ?password,
    blockSeq_getElem?_lock, fun j hj => blockSeq_getElem?_data hj, fun j hj => blockSeq_getElem?_addr hj,
    blockSeq_getElem?_closing 0, blockSeq_getElem?_closing 1, blockSeq_getElem?_closing 2,
    blockSeq_getElem?_closing 3, blockSeq_getElem?_closing 4⟩
  case password =>
    rintro w rfl j hj
    exact blockSeq_getElem?_password w hj

/-- Settles O26: the segments and the gaps are counted by the symbols and the bits. -/
theorem blockSequenceCounts : Obligations.BlockSequenceCounts := by
  unfold Obligations.BlockSequenceCounts
  intro a page addr lock data pwd b
  refine ⟨⟨blockSeq_length .., countBits_blockSeq_take (pwd := none), countBits_blockSeq, countSymbol_s_blockSeq,
    countSymbol_w_blockSeq, countSymbol_p_blockSeq, ?_, ?_⟩, blockSeq_length .., countBits_blockSeq, ?_, ?_⟩
  all_goals simp [expand_length, countGaps_expand, countBits_blockSeq]

/-- Settles O27: of the symbols that are no bits, `blockseq` has two W, two S and one P. -/
theorem blockSequenceDuration : Obligations.BlockSequenceDuration := by
  unfold Obligations.BlockSequenceDuration
  intro a page addr lock pwd data b
  refine ⟨?duration, ?opcodeBit, ?firstResetBit, ?secondResetBit⟩
  case duration =>
    rw [totalDuration_expand, countSymbol_w_blockSeq, countSymbol_s_blockSeq, countSymbol_p_blockSeq, Nat.one_mul]
  case opcodeBit => exact congrArg (Option.map Prod.fst) (blockSeq_getElem?_opening (by decide))
  case firstResetBit => exact congrArg (Option.map Prod.fst) (blockSeq_reverse_getElem? (by decide))
  case secondResetBit => exact congrArg (Option.map Prod.fst) (blockSeq_reverse_getElem? (by decide))

end Sys2Proof.Machine
end

section
/-! The batch as emitted: `k` block writes and a final reset frame (42_sequencer.md R153, R154). -/

namespace Sys2Proof.Machine

section
variable {k : BitVec 4} {blk : Vector Word 8}

/-- A legal count is the number of block writes of the batch. -/
theorem batchBlocks_length (hk : k.toNat ≤ 8) : ((List.finRange 8).take k.toNat).length = k.toNat := by
  rw [List.length_take, List.length_finRange, Nat.min_eq_left hk]

/-- What every unprotected block write has `c` times, a batch has `c` times a block, besides its final reset frame. -/
theorem countP_batchExpansion {p : Emission → Bool} {c : Nat} (hk : k.toNat ≤ 8)
    (hblock : ∀ addr data b, (blockSeq false addr false none data b).countP p = c) :
    (batchExpansion k blk).countP p = c * k.toNat + (resetFrame .finalReset k).countP p := by
  rw [batchExpansion, List.countP_append, List.countP_flatMap]
  simp only [Function.comp_def, hblock, List.map_const', List.sum_replicate, batchBlocks_length hk, smul_eq_mul,
    Nat.mul_comm]

theorem batchExpansion_length (hk : k.toNat ≤ 8) : (batchExpansion k blk).length = 45 * k.toNat + 3 := by
  have hblock (addr : BitVec 3) (data : Word) (b : BitVec 4) :
      (blockSeq false addr false none data b).countP (fun _ => true) = 45 := by simp
  simpa [resetFrame] using countP_batchExpansion (blk := blk) hk hblock

theorem countBits_batchExpansion (hk : k.toNat ≤ 8) : countBits (batchExpansion k blk) = 40 * k.toNat + 2 :=
  countP_batchExpansion hk fun _ _ _ => countBits_blockSeq

theorem countSymbol_s_batchExpansion (hk : k.toNat ≤ 8) :
    countSymbol .s (batchExpansion k blk) = 2 * k.toNat + 1 :=
  countP_batchExpansion hk fun _ _ _ => countSymbol_s_blockSeq

end

/-- Settles O29: block by block the symbols are those of `blockseq`, and they count the segments and the gaps. -/
theorem batchCounts : Obligations.BatchCounts := by
  unfold Obligations.BatchCounts
  intro a k blk hk
  have hlength := batchExpansion_length (blk := blk) hk
  have hbits := countBits_batchExpansion (blk := blk) hk
  have hstarts := countSymbol_s_batchExpansion (blk := blk) hk
  refine ⟨hlength, hbits, hstarts, ?segments, ?gaps⟩
  case segments =>
    rw [expand_length, hlength, hbits]
    omega
  case gaps =>
    rw [countGaps_expand, hbits, hstarts]
    omega

end Sys2Proof.Machine
end

section
/-! Fault entry, and which commands raise which fault (60_exceptions.md R181, R182, R184, R185, R188, R189). -/

namespace Sys2Proof.Machine

open Sys2Proof

variable {s : State}

/-! ### Fault entry -/

theorem State.cwEn_of_closed (h : s.session = false) : s.cwEn = false := by
  simp [State.cwEn, h]

/-- What fault entry changes; ACT's free value is left open. -/
theorem State.raiseFault_eq (s : State) (c : Cause) (w : Word) :
    s.raiseFault c w = { s with
      cause := c
      faultCmd := w
      halt := true
      session := false
      act := (s.raiseFault c w).act
      freeCount := (s.raiseFault c w).freeCount
      events := s.events ++ [.fault c w] ++ (if s.session then [Event.off] else []) } := by
  cases h : s.session
  · simp [State.raiseFault, State.closeSession, State.addEvent, h]
  · simp [State.raiseFault, State.closeSession, State.addEvent, State.forgetAct, h]

/-- Settles O33: with the session closed nothing is driven. -/
theorem faultEntryRecordsAndCloses : Obligations.FaultEntryRecordsAndCloses := by
  unfold Obligations.FaultEntryRecordsAndCloses
  intro s c w
  have hclosed := s.raiseFault_session c w
  have hcw := State.cwEn_of_closed hclosed
  exact ⟨s.raiseFault_eq c w, hcw, if_neg (by simp [hcw]), hclosed, hclosed, rfl⟩

/-- Settles O16. -/
theorem busyWriteLeavesTheCommandRunning : Obligations.BusyWriteLeavesTheCommandRunning := by
  unfold Obligations.BusyWriteLeavesTheCommandRunning
  exact fun s off w rest ha hh hc hp => step_write_busy ha hh hc hp

/-! ### The commands that fault -/

/-- The operand check of a command (60_exceptions.md R184). -/
def operandCheck : Instr → Option Cause
  | .opc p => checkPage p
  | .wblk p n _ _ => (checkPage p).or (checkAddress n)
  | .wbatch k => checkCount k
  | .start | .stop | .bit _ | .sgap | .rstf => none

theorem exec_emission {i : Instr} (hstart : i ≠ .start) (hstop : i ≠ .stop) (s : State) :
    exec i s = submitEmission i (operandCheck i) (expansionOf i s) s := by
  cases i with
  | start => exact absurd rfl hstart
  | stop => exact absurd rfl hstop
  | bit | sgap | opc | rstf | wblk | wbatch => rfl

theorem exec_emission_accepting {i : Instr} (hs : s.Accepting) (hstart : i ≠ .start) (hstop : i ≠ .stop) :
    exec i s = .next (s.acceptEmission i (operandCheck i) (expansionOf i s)) := by
  rw [exec_emission hstart hstop, submitEmission, State.gated_accepting _ hs.running hs.quiet]

theorem exec_emission_idle {i : Instr} (hs : s.Idle) (hstart : i ≠ .start) (hstop : i ≠ .stop) :
    exec i s = .next (s.raiseFault .noSession (encode i)) := by
  rw [exec_emission_accepting hs.toAccepting hstart hstop]
  exact congrArg _ (if_neg (by simp [hs.noSession]))

theorem exec_badOperand {i : Instr} {c : Cause} (hs : s.Active) (hbad : operandCheck i = some c) :
    exec i s = .next (s.raiseFault c (encode i)) := by
  have hstart : i ≠ .start := by rintro rfl; cases hbad
  have hstop : i ≠ .stop := by rintro rfl; cases hbad
  rw [exec_emission_accepting hs.toAccepting hstart hstop, hbad]
  exact congrArg _ (if_pos hs.session)

theorem exec_start_active (hs : s.Active) :
    exec .start s = .next (s.raiseFault .sessionActive (encode .start)) := by
  rw [exec, execStart, State.gated_accepting _ hs.running hs.quiet, if_pos hs.session]

theorem exec_start_idle (hs : s.Idle) :
    exec .start s =
      .next (if s.profile.allNonzero then s.openSession else s.raiseFault .badProfile (encode .start)) := by
  rw [exec, execStart, State.gated_accepting _ hs.running hs.quiet, if_neg (by simp [hs.noSession])]

theorem exec_stop_idle (hs : s.Idle) : exec .stop s = .next s := by
  rw [exec, execStop, State.gated_accepting _ hs.running hs.quiet, State.closeSession_of_closed s hs.noSession]

/-- Settles O34: the session is checked before the operands. -/
theorem sessionMisuseFaults : Obligations.SessionMisuseFaults := by
  unfold Obligations.SessionMisuseFaults
  exact ⟨fun s i hs hstart hstop => exec_emission_idle hs hstart hstop, fun s hs => exec_start_active hs,
    fun s hs => ⟨s, exec_stop_idle hs, hs.running, rfl⟩⟩

theorem checkPage_bad {p : BitVec 2} (h : 1 < p.toNat) : checkPage p = some .badPage :=
  if_neg fun hl => Nat.not_le.mpr h (of_decide_eq_true hl)

theorem checkPage_legal {p : BitVec 2} (h : p.toNat ≤ 1) : checkPage p = none :=
  if_pos (decide_eq_true h)

theorem checkAddress_bad {n : BitVec 4} (h : 7 < n.toNat) : checkAddress n = some .badBlock :=
  if_neg fun hl => Nat.not_le.mpr h (of_decide_eq_true hl)

theorem checkCount_bad {k : BitVec 4} (h : 8 < k.toNat) : checkCount k = some .badBlock :=
  if_neg fun hl => Nat.not_le.mpr h (of_decide_eq_true hl)

/-- Settles O35: the page is checked before the block address. -/
theorem badOperandsFault : Obligations.BadOperandsFault := by
  unfold Obligations.BadOperandsFault
  refine ⟨?opc, ?wblkPage, ?wblkAddress, ?wbatch, ?start⟩
  case opc => exact fun s p hs hp => exec_badOperand hs (checkPage_bad hp)
  case wblkPage => exact fun s p n l e hs hp => exec_badOperand hs (by rw [operandCheck, checkPage_bad hp]; rfl)
  case wblkAddress =>
    exact fun s p n l e hs hp hn =>
      exec_badOperand hs (by rw [operandCheck, checkPage_legal hp, checkAddress_bad hn]; rfl)
  case wbatch => exact fun s k hs hk => exec_badOperand hs (checkCount_bad hk)
  case start =>
    intro s hs hzero
    have hprofile : ¬ s.profile.allNonzero = true := by
      simp only [Profile.allNonzero, Bool.and_eq_true, bne_iff_ne]
      tauto
    rw [exec_start_idle hs, if_neg hprofile]

/-! ### Faults are precise -/

theorem step_reset {rest : List Move} (hp : s.pending = .reset :: rest) :
    step s = .next (s.setPending rest).resetBlock :=
  step_next_move hp

/-- Settles O36: of the kinds of step only fault entry sets HALT. -/
theorem faultsArePrecise : Obligations.FaultsArePrecise := by
  unfold Obligations.FaultsArePrecise
  intro s t hrunning h hhalted
  rcases step_cases_record h with ⟨rest, hp⟩ | ⟨hs, w, rest, c, hp, -, rfl⟩ | hkeep
  · cases (step_reset hp).symm.trans h
    cases hhalted
  · refine ⟨w, rest, hp, hs.quiet, ?_⟩
    rw [State.raiseFault_cause]
    exact (s.setPending rest).raiseFault_eq c w
  · rw [hkeep.halt, hrunning] at hhalted
    cases hhalted

end Sys2Proof.Machine
end

section
/-! The halted block: its moves to come, its record over any run, and its silence (60_exceptions.md R186, R187). -/

namespace Sys2Proof.Machine

open Sys2Proof

variable {s t : State}

/-! ### The moves to come -/

@[simp] theorem State.engineStep_pending (s : State) : s.engineStep.pending = s.pending := by
  rcases s.engineStep_cases with ⟨-, e⟩ | ⟨c, -, -, e⟩ | ⟨c, g, gs, -, -, e⟩ <;> rw [e]

@[simp] theorem State.tick_pending (s : State) : s.tick.pending = s.pending := by
  rcases s.tick_cases with ⟨-, e⟩ | ⟨c, -, -, e⟩ | ⟨c, -, -, -, e⟩ | ⟨c, -, -, -, e⟩ <;> rw [e]
  exact s.engineStep_pending

theorem exec_pending {i : Instr} (h : exec i s = .next t) : t.pending = s.pending := by
  by_cases hh : s.halt = true
  · cases (exec_halted i hh).symm.trans h
    rfl
  have hh : s.halt = false := by simpa using hh
  by_cases hc : s.cur = none
  · rcases exec_accepting i hh hc h with ⟨c, -, rfl⟩ | ⟨-, -, -, rfl⟩ | ⟨-, rfl⟩ | ⟨-, -, -, rfl⟩ <;> simp
  · cases (exec_busy i hh hc).symm.trans h
    rfl

theorem memWrite_pending {off : Nat} {w : Word} (ha : off % 4 = 0) (hw : off < 256)
    (h : memWrite (BitVec.ofNat 8 off) w s = .next t) : t.pending = s.pending := by
  rcases memWrite_cases ha hw h with
    ⟨-, rfl⟩ | ⟨-, -, rfl⟩ | ⟨-, -, rfl⟩ | ⟨-, -, -, rfl⟩ | ⟨-, -, -, i, -, he⟩
  · rfl
  · rfl
  · simp
  · simp
  · exact exec_pending he

/-- A step takes off the first move, and puts only moves of `wait_idle` in its place. -/
theorem step_pending (h : step s = .next t) :
    ∃ ms, (∀ m ∈ ms, m = .engine ∨ m = .waitIdle) ∧ t.pending = ms ++ s.pending.tail := by
  have drop {t : State} (e : t.pending = s.pending.tail) :
      ∃ ms, (∀ m ∈ ms, m = .engine ∨ m = .waitIdle) ∧ t.pending = ms ++ s.pending.tail := ⟨[], nofun, e⟩
  rcases step_cases h with ⟨hp, rfl⟩ | ⟨rest, hp, rfl⟩ | ⟨rest, hp, rfl⟩ | ⟨rest, hp, rfl⟩ |
    ⟨rest, ms, hp, hms, rfl⟩ | ⟨rest, off, hp, -, -, rfl⟩ | ⟨rest, off, w, hp, ha, hw, hm⟩
  · exact drop (by simp [hp])
  · exact drop (by simp [hp])
  · exact drop (by simp [hp])
  · exact drop (by simp [hp, State.resetBlock])
  · exact ⟨ms, hms, by simp [hp]⟩
  · exact drop (by simp [hp])
  · exact drop (by simp [hp, memWrite_pending ha hw hm])

/-- No step schedules a reset. -/
theorem step_keeps_noReset (hr : .reset ∉ s.pending) (h : step s = .next t) : .reset ∉ t.pending := by
  obtain ⟨ms, hms, e⟩ := step_pending h
  rw [e, List.mem_append]
  rintro (hm | hm)
  · simpa using hms _ hm
  · exact hr (List.mem_of_mem_tail hm)

/-! ### Halted runs -/

/-- A halted block that is not reset takes no second fault: the first one's record stays. -/
theorem step_halted_keepsRecord (hh : s.halt = true) (hr : .reset ∉ s.pending) (h : step s = .next t) :
    s.KeepsRecord t := by
  rcases step_cases_record h with ⟨rest, hp⟩ | ⟨hs, -⟩ | hkeep
  · exact absurd (by simp [hp]) hr
  · exact absurd hs.running (by simp [hh])
  · exact hkeep

/-- Settles O37, by induction on the number of steps: that no reset is to come holds along the run. -/
theorem haltLastsUntilReset : Obligations.HaltLastsUntilReset := by
  unfold Obligations.HaltLastsUntilReset
  intro n
  induction n with
  | zero =>
    intro s t hh _ hrun
    cases hrun
    exact ⟨hh, rfl, rfl⟩
  | succ n ih =>
    intro s t hh hr hrun
    obtain ⟨u, hstep, hrest⟩ := run_inv hrun
    have hkeep := step_halted_keepsRecord hh hr hstep
    obtain ⟨hhalt, hcause, hcmd⟩ := ih u t (hkeep.halt.trans hh) (step_keeps_noReset hr hstep) hrest
    exact ⟨hhalt, hcause.trans hkeep.cause, hcmd.trans hkeep.faultCmd⟩

/-! ### The silence of a halted block -/

theorem State.Inv.halted_quiet (hs : s.Inv) (hh : s.halt = true) : s.cur = none := by
  by_contra hc
  obtain ⟨-, hrunning⟩ := hs.busyOpen hc
  simp [hh] at hrunning

/-- Settles O38: a halted state of the invariant has no session and no current segment. -/
theorem haltedBlockIsInert : Obligations.HaltedBlockIsInert := by
  unfold Obligations.HaltedBlockIsInert
  intro s hs hh
  have hquiet := hs.halted_quiet hh
  have hclosed := hs.haltClosed hh
  refine ⟨fun off w rest ha hp => step_write_halted ha hp hh, readsReturnTheRegisterAndChangeNothing s,
    fun rest hp => ?engine, hquiet, State.cwEn_of_closed hclosed, hclosed, State.busy_eq_false_iff.mpr hquiet⟩
  case engine =>
    rw [step_next_move hp]
    exact congrArg _ (State.engineStep_quiet (s := s.setPending rest) hquiet)

end Sys2Proof.Machine
end

section
/-! The durations of the symbols (70_reset_and_hazards.md R219). -/

namespace Sys2Proof.Machine

open Sys2Proof

/-- The time base: a profile field counts units of 8 µs (00_scope.md R8). -/
theorem dur_eq (f : Field) : dur f = 8 * f.toNat := rfl

/-- Settles O31: `Symbol.parts` has a row for each symbol, and each of its durations is a `dur`. -/
theorem symbolDurations : Obligations.SymbolDurations := by
  unfold Obligations.SymbolDurations
  intro a
  simp only [Symbol.parts, dur_eq, and_self]

end Sys2Proof.Machine
end

section
/-! Command words: every command's word decodes to it, and no word is hit by two rows (30_encoding.md section 1). -/

namespace Sys2Proof.Machine

open Sys2Proof

variable {w : Word}

/-! ### The rows -/

/-- Two rows that hit one word agree in its OP, and no two rows have the same OP (30_encoding.md R82, R84). -/
theorem row_unique {j k : Fin rows.length} (hj : rows[j].hits w = true) (hk : rows[k].hits w = true) : j = k := by
  have hop : ∀ j k : Fin rows.length, opField rows[j].value = opField rows[k].value → j = k := by decide
  refine hop j k ?_
  exact (opField_of_hits (List.getElem_mem j.isLt) hj).symm.trans (opField_of_hits (List.getElem_mem k.isLt) hk)

/-- Settles O5. -/
theorem atMostOneRowMatches : Obligations.AtMostOneRowMatches := by
  unfold Obligations.AtMostOneRowMatches
  exact fun w j k hj hk => row_unique hj hk

/-- A word is decoded by whichever row hits it (30_encoding.md R84). -/
theorem decode_of_hits {r : Row} (hr : r ∈ rows) (h : r.hits w = true) : decode w = .ok (r.build w) := by
  cases hd : decode w with
  | error e => exact absurd ⟨r, hr, h⟩ (decode_error_iff.mp ⟨e, hd⟩)
  | ok i =>
    obtain ⟨r', hr', h', rfl⟩ := decode_ok hd
    obtain ⟨j, hj, rfl⟩ := List.mem_iff_getElem.mp hr
    obtain ⟨k, hk, rfl⟩ := List.mem_iff_getElem.mp hr'
    have hjk : (⟨j, hj⟩ : Fin rows.length) = ⟨k, hk⟩ := row_unique h h'
    cases hjk
    rfl

/-- Settles O4. -/
theorem encodeOfDecode : Obligations.EncodeOfDecode := by
  unfold Obligations.EncodeOfDecode
  exact fun w i h => encode_of_decode h

/-! ### The fields of a packed word (30_encoding.md R81) -/

section
variable (v : Bool) (n : BitVec 4) (e l : Bool) (p : BitVec 2) (op : BitVec 4)

@[simp] theorem vField_packFields : vField (packFields v n e l p op) = v := by
  unfold vField packFields
  repeat rw [BitVec.getLsbD_append]
  simp

@[simp] theorem nField_packFields : nField (packFields v n e l p op) = n := by
  unfold nField packFields
  repeat rw [BitVec.extractLsb'_append_eq_of_le (by decide)]
  exact BitVec.extractLsb'_append_eq_right

@[simp] theorem pwdenField_packFields : pwdenField (packFields v n e l p op) = e := by
  unfold pwdenField packFields
  repeat rw [BitVec.getLsbD_append]
  simp

@[simp] theorem lockField_packFields : lockField (packFields v n e l p op) = l := by
  unfold lockField packFields
  repeat rw [BitVec.getLsbD_append]
  simp

@[simp] theorem pageField_packFields : pageField (packFields v n e l p op) = p := by
  unfold pageField packFields
  repeat rw [BitVec.extractLsb'_append_eq_of_le (by decide)]
  exact BitVec.extractLsb'_append_eq_right

/-- A mask that covers the reserved bits is applied to a word field by field. -/
theorem packFields_and (v' : Bool) (n' : BitVec 4) (e' l' : Bool) (p' : BitVec 2) (op' : BitVec 4) :
    packFields v n e l p op &&&
        (BitVec.allOnes 19 ++ BitVec.ofBool v' ++ n' ++ BitVec.ofBool e' ++ BitVec.ofBool l' ++ p' ++ op') =
      packFields (v && v') (n &&& n') (e && e') (l && l') (p &&& p') (op &&& op') := by
  unfold packFields
  repeat rw [BitVec.and_append]
  rw [BitVec.zero_and, BitVec.ofBool_and_ofBool, BitVec.ofBool_and_ofBool, BitVec.ofBool_and_ofBool]

end

/-- The row of a command hits its word: the mask is 0 at the operands and 1 elsewhere (30_encoding.md R83). -/
theorem exists_row_encode (i : Instr) : ∃ r ∈ rows, r.hits (encode i) = true ∧ r.build (encode i) = i := by
  cases i with
  | start => exact ⟨rows[0], List.getElem_mem _, rfl, rfl⟩
  | stop => exact ⟨rows[1], List.getElem_mem _, rfl, rfl⟩
  | bit v =>
    refine ⟨rows[2], List.getElem_mem _, beq_iff_eq.mpr ?_, congrArg Instr.bit (vField_packFields ..)⟩
    refine (packFields_and v 0#4 false false 0#2 3#4 false 0xF#4 true true 0x3#2 0xF#4).trans ?_
    rw [Bool.and_false]
    rfl
  | sgap => exact ⟨rows[3], List.getElem_mem _, rfl, rfl⟩
  | opc p =>
    refine ⟨rows[4], List.getElem_mem _, beq_iff_eq.mpr ?_, congrArg Instr.opc (pageField_packFields ..)⟩
    refine (packFields_and false 0#4 false false p 5#4 true 0xF#4 true true 0#2 0xF#4).trans ?_
    rw [BitVec.and_zero]
    rfl
  | rstf => exact ⟨rows[5], List.getElem_mem _, rfl, rfl⟩
  | wblk p n l e =>
    refine ⟨rows[6], List.getElem_mem _, beq_iff_eq.mpr ?_, by simp [rows, encode]⟩
    refine (packFields_and false n e l p 7#4 true 0#4 false false 0#2 0xF#4).trans ?_
    rw [Bool.and_false, Bool.and_false, BitVec.and_zero, BitVec.and_zero]
    rfl
  | wbatch k =>
    refine ⟨rows[7], List.getElem_mem _, beq_iff_eq.mpr ?_, congrArg Instr.wbatch (nField_packFields ..)⟩
    refine (packFields_and false k false false 0#2 8#4 true 0#4 true true 0x3#2 0xF#4).trans ?_
    rw [BitVec.and_zero]
    rfl

/-- Settles O3: the row of the command hits its word, and takes the operands back out of it. -/
theorem decodeOfEncode : Obligations.DecodeOfEncode := by
  unfold Obligations.DecodeOfEncode
  intro i
  obtain ⟨r, hr, hhit, hbuild⟩ := exists_row_encode i
  rw [decode_of_hits hr hhit, hbuild]

/-- Settles O7: ten words of R83 and R86, of which each is decoded by evaluation. -/
theorem tableWordsDecode : Obligations.TableWordsDecode := by
  unfold Obligations.TableWordsDecode
  decide

end Sys2Proof.Machine
end

section
/-! The window and the moves: addresses, byte lanes, refused accesses, the engine's and the reset move
(20_memory.md R60 to R64, R70; 42_sequencer.md R160; 70_reset_and_hazards.md R210). -/

namespace Sys2Proof.Machine

open Sys2Proof

variable {s : State}

/-! ### Addresses and lanes -/

/-- Settles O13. -/
theorem windowIsRelativeToBase : Obligations.WindowIsRelativeToBase := by
  unfold Obligations.WindowIsRelativeToBase
  intro addr off
  unfold windowOffset Config.windowBytes
  split
  · rw [Option.some.injEq]
    omega
  · simp only [reduceCtorEq, false_iff]
    omega

/-- Settles O14: neighbouring lanes are neighbouring slices of the word. -/
theorem byteLanesAreLittleEndian : Obligations.ByteLanesAreLittleEndian := by
  unfold Obligations.ByteLanesAreLittleEndian
  refine ⟨fun w j i hi => by simp [laneByte, hi], fun w => ?_⟩
  unfold wordOfLanes laneByte
  simp (disch := decide) only [BitVec.extractLsb'_append_extractLsb'_eq_extractLsb']
  exact BitVec.extractLsb'_eq_self

theorem dur_le (f : Field) : dur f ≤ 524280 := by
  have hf := f.isLt
  rw [dur_eq]
  omega

/-- Settles O32: the product of 8 and a 16-bit field is below `2 ^ 20`. -/
theorem durationsFitTwentyBits : Obligations.DurationsFitTwentyBits := by
  unfold Obligations.DurationsFitTwentyBits
  intro f
  have hf := f.isLt
  refine ⟨dur_le f, ?_⟩
  simp only [dur_eq, BitVec.toNat_mul, BitVec.toNat_setWidth, BitVec.toNat_ofNat]
  omega

/-! ### Refused accesses -/

theorem checkedAccess_misaligned {off : Nat} {k : BitVec 8 → Result} (h : off % 4 ≠ 0) :
    checkedAccess off 4 k = .refused (.misaligned off) := by
  simp [checkedAccess, h]

theorem checkedAccess_outside {off : Nat} {k : BitVec 8 → Result} (ha : off % 4 = 0) (hw : 256 ≤ off) :
    checkedAccess off 4 k = .fault (.outsideWindow off) := by
  simp [checkedAccess, ha, Config.windowBytes, Nat.not_lt.mpr hw]

theorem step_readAccess {off size : Nat} {rest : List Move} (hp : s.pending = .access (.read off size) :: rest) :
    step s = checkedAccess off size fun o => memRead o (s.setPending rest) :=
  step_next_move hp

theorem step_writeAccess {off size : Nat} {w : Word} {rest : List Move}
    (hp : s.pending = .access (.write off size w) :: rest) :
    step s = checkedAccess off size fun o => memWrite o w (s.setPending rest) :=
  step_next_move hp

/-- Settles O11: the size is checked first, then the alignment. -/
theorem illFormedAccessesAreRefused : Obligations.IllFormedAccessesAreRefused := by
  unfold Obligations.IllFormedAccessesAreRefused
  exact fun s off size w rest =>
    ⟨fun h hp => (step_readAccess hp).trans (checkedAccess_size h),
      fun h hp => (step_writeAccess hp).trans (checkedAccess_size h),
      fun h hp => (step_readAccess hp).trans (checkedAccess_misaligned h),
      fun h hp => (step_writeAccess hp).trans (checkedAccess_misaligned h)⟩

/-- Settles O12. -/
theorem accessesPastTheWindowStop : Obligations.AccessesPastTheWindowStop := by
  unfold Obligations.AccessesPastTheWindowStop
  exact fun s off w rest ha hw =>
    ⟨fun hp => (step_readAccess hp).trans (checkedAccess_outside ha hw),
      fun hp => (step_writeAccess hp).trans (checkedAccess_outside ha hw)⟩

/-! ### Moves -/

/-- Settles O8. -/
theorem stepRunsTheDecodedCommand : Obligations.StepRunsTheDecodedCommand := by
  unfold Obligations.StepRunsTheDecodedCommand
  exact fun s w rest i hp hd => step_command_ok hp hd

theorem step_engine {rest : List Move} (hp : s.pending = .engine :: rest) :
    step s = .next (s.setPending rest).engineStep :=
  step_next_move hp

/-- Settles O39, by the three cases of the engine step. -/
theorem engineStepPlaysTheCurrentSegment : Obligations.EngineStepPlaysTheCurrentSegment := by
  unfold Obligations.EngineStepPlaysTheCurrentSegment
  intro s rest hp
  rw [step_engine hp]
  refine ⟨fun hc => ?quiet, fun c hc hq => ?last, fun c g gs hc hq => ?more⟩ <;> refine congrArg _ ?_
  case quiet => exact State.engineStep_quiet (s := s.setPending rest) hc
  case last => rw [State.engineStep_last (s := s.setPending rest) hc hq, ← hq]; rfl
  case more => exact State.engineStep_more (s := s.setPending rest) hc hq

/-- Settles O40: with no pending move, taking the engine move off gives the state itself. -/
theorem engineRunsWhenNoMoveIsPending : Obligations.EngineRunsWhenNoMoveIsPending := by
  unfold Obligations.EngineRunsWhenNoMoveIsPending
  intro s hp
  have hback : (s.setPending [.engine]).setPending [] = s := by rw [State.setPending, State.setPending, ← hp]
  rw [step_no_move hp, step_engine (State.setPending_pending s _), hback]

/-- Settles O2. -/
theorem resetMoveAbandonsEverything : Obligations.ResetMoveAbandonsEverything := by
  unfold Obligations.ResetMoveAbandonsEverything
  exact fun s rest hp => ⟨_, step_reset hp, rfl, rfl, rfl, rfl⟩

end Sys2Proof.Machine
end

section
/-! START, STOP and the emission commands when they complete (42_sequencer.md sections 2 to 5, 40_pulse_gap.md, and
41_block_write.md section 3). -/

namespace Sys2Proof.Machine

open Sys2Proof

variable {s : State}

/-! ### START and STOP -/

theorem Profile.allNonzero_iff (p : Profile) : p.allNonzero = true ↔
    p.waitTime ≠ 0#16 ∧ p.startGap ≠ 0#16 ∧ p.writeGap ≠ 0#16 ∧ p.data0 ≠ 0#16 ∧ p.data1 ≠ 0#16 ∧
      p.program ≠ 0#16 := by
  simp only [Profile.allNonzero, Bool.and_eq_true, bne_iff_ne, and_assoc]

/-- Settles O17. -/
theorem startOpensTheSession : Obligations.StartOpensTheSession := by
  unfold Obligations.StartOpensTheSession
  intro s hs hw hsg hwg h0 h1 hp
  rw [exec_start_idle hs, if_pos (s.profile.allNonzero_iff.mpr ⟨hw, hsg, hwg, h0, h1, hp⟩)]
  exact ⟨rfl, (State.cwEn_iff _).mpr ⟨rfl, fun c hc => nomatch hs.quiet.symm.trans hc⟩⟩

theorem exec_stop_accepting (hs : s.Accepting) : exec .stop s = .next s.closeSession := by
  rw [exec, execStop, State.gated_accepting _ hs.running hs.quiet]

/-- What closing an open session changes; ACT's free value is left open. -/
theorem State.closeSession_of_open (h : s.session = true) :
    s.closeSession = { s with
      session := false
      act := s.closeSession.act
      freeCount := s.closeSession.freeCount
      events := s.events ++ [.off] } := by
  simp [State.closeSession, State.addEvent, State.forgetAct, h]

/-- Settles O18. -/
theorem stopClosesTheSession : Obligations.StopClosesTheSession := by
  unfold Obligations.StopClosesTheSession
  refine ⟨fun s hs => ?_, fun s hs => exec_stop_idle hs⟩
  have hclosed := s.closeSession_session
  exact ⟨_, exec_stop_accepting hs.toAccepting, State.closeSession_of_open hs.session, State.cwEn_of_closed hclosed,
    hclosed, hclosed⟩

/-! ### The state in which an emission begins -/

/-- An emission command with legal operands begins its emission in a session. -/
theorem exec_legal {i : Instr} (hs : s.Active) (hstart : i ≠ .start) (hstop : i ≠ .stop)
    (hlegal : operandCheck i = none) : exec i s = .next (s.beginEmission i.opcode (expansionOf i s)) := by
  rw [exec_emission_accepting hs.toAccepting hstart hstop, hlegal]
  exact congrArg _ (if_pos hs.session)

/-- The first segment of an emission becomes CUR, and the others Q (42_sequencer.md R155). -/
theorem State.beginEmission_eq {op : BitVec 4} {es : List Emission} {g : Segment} {gs : List Segment}
    (h : expand s.act es = g :: gs) :
    s.beginEmission op es = { s with
      cur := some ⟨g, g.d⟩
      queue := gs
      latency := Config.acceptLat
      events := s.events ++ [.began op]
      symbols := s.symbols ++ es } := by
  rw [State.beginEmission, h]
  rfl

/-- Every symbol has a segment. -/
theorem exists_expand_eq_cons (a : Profile) {es : List Emission} (h : es ≠ []) : ∃ g gs, expand a es = g :: gs := by
  refine List.exists_cons_of_length_pos ?_
  have hpos := List.length_pos_iff.mpr h
  rw [expand_length]
  omega

/-- An emission command with legal operands makes the segments of its symbols CUR and Q. -/
theorem exec_emits {i : Instr} (hs : s.Active) (hstart : i ≠ .start) (hstop : i ≠ .stop)
    (hlegal : operandCheck i = none) (hes : expansionOf i s ≠ []) :
    ∃ g gs, expand s.act (expansionOf i s) = g :: gs ∧ exec i s = .next { s with
      cur := some ⟨g, g.d⟩
      queue := gs
      latency := Config.acceptLat
      events := s.events ++ [.began i.opcode]
      symbols := s.symbols ++ expansionOf i s } := by
  obtain ⟨g, gs, h⟩ := exists_expand_eq_cons s.act hes
  exact ⟨g, gs, h, by rw [exec_legal hs hstart hstop hlegal, State.beginEmission_eq h]⟩

/-! ### The short commands (40_pulse_gap.md) -/

/-- Settles O19. -/
theorem bitEmitsHoldThenGap : Obligations.BitEmitsHoldThenGap := by
  unfold Obligations.BitEmitsHoldThenGap
  intro s v hs
  rw [exec_legal (i := .bit v) hs nofun nofun rfl]
  cases v <;> exact congrArg _ (State.beginEmission_eq rfl)

/-- Settles O20. -/
theorem sgapEmitsTheStartGap : Obligations.SgapEmitsTheStartGap := by
  unfold Obligations.SgapEmitsTheStartGap
  intro s hs
  rw [exec_legal (i := .sgap) hs nofun nofun rfl]
  exact congrArg _ (State.beginEmission_eq rfl)

/-- The two legal pages. -/
theorem page_cases {p : BitVec 2} (h : p.toNat ≤ 1) : p = 0#2 ∨ p = 1#2 := by
  revert p
  decide

/-- Settles O21. -/
theorem opcEmitsOneThenThePage : Obligations.OpcEmitsOneThenThePage := by
  unfold Obligations.OpcEmitsOneThenThePage
  intro s p hs hp
  rw [exec_legal (i := .opc p) hs nofun nofun (checkPage_legal hp)]
  rcases page_cases hp with rfl | rfl <;> exact congrArg _ (State.beginEmission_eq rfl)

/-- Settles O22. -/
theorem rstfEmitsTheResetFrame : Obligations.RstfEmitsTheResetFrame := by
  unfold Obligations.RstfEmitsTheResetFrame
  intro s hs
  rw [exec_legal (i := .rstf) hs nofun nofun rfl]
  exact congrArg _ (State.beginEmission_eq rfl)

/-! ### WBLK and WBATCH -/

theorem checkAddress_legal {n : BitVec 4} (h : n.toNat ≤ 7) : checkAddress n = none :=
  if_pos (decide_eq_true h)

theorem checkCount_legal {k : BitVec 4} (h : k.toNat ≤ 8) : checkCount k = none :=
  if_pos (decide_eq_true h)

theorem blockSeq_ne_nil {page : Bool} {addr : BitVec 3} {lock : Bool} {pwd : Option Word} {data : Word}
    {b : BitVec 4} : blockSeq page addr lock pwd data b ≠ [] := by
  rw [← List.length_pos_iff, blockSeq_length]
  omega

theorem batchExpansion_ne_nil {k : BitVec 4} {blk : Vector Word 8} (hk : k.toNat ≤ 8) :
    batchExpansion k blk ≠ [] := by
  rw [← List.length_pos_iff, batchExpansion_length hk]
  omega

/-- For a legal page the operand is the page bit, and a block address is its three low bits (30_encoding.md R81). -/
theorem blockExpansion_legal {p : BitVec 2} (n : BitVec 4) (l e : Bool) (s : State) (hp : p.toNat ≤ 1) :
    blockExpansion p n l e s =
      blockSeq (p == 1#2) (BitVec.ofNat 3 n.toNat) l (if e then some s.password else none) s.data 0#4 := by
  have hn : n.extractLsb' 0 3 = BitVec.ofNat 3 n.toNat := by
    revert n
    decide
  rw [blockExpansion, hn]
  rcases page_cases hp with rfl | rfl <;> rfl

/-- Settles O23. -/
theorem wblkEmitsTheBlockSequence : Obligations.WblkEmitsTheBlockSequence := by
  unfold Obligations.WblkEmitsTheBlockSequence
  intro s p n l e hs hp hn
  have hlegal : operandCheck (.wblk p n l e) = none := by
    rw [operandCheck, checkPage_legal hp, checkAddress_legal hn]
    rfl
  rw [← blockExpansion_legal n l e s hp]
  exact exec_emits (i := .wblk p n l e) hs nofun nofun hlegal blockSeq_ne_nil

/-- Settles O24. -/
theorem wbatchEmitsTheBatch : Obligations.WbatchEmitsTheBatch := by
  unfold Obligations.WbatchEmitsTheBatch
  exact fun s k hs hk =>
    exec_emits (i := .wbatch k) hs nofun nofun (checkCount_legal hk) (batchExpansion_ne_nil hk)

/-! ### The order of a batch (42_sequencer.md R153) -/

/-- A list of parts of one length `c`, put one after the other, has its `i`-th part at position `c * i`. -/
theorem drop_flatMap_of_length {α β : Type} {f : α → List β} {c : Nat} (hf : ∀ x, (f x).length = c)
    (xs : List α) (i : Nat) : (xs.flatMap f).drop (c * i) = (xs.drop i).flatMap f := by
  induction xs generalizing i with
  | nil => simp
  | cons x xs ih =>
    cases i with
    | zero => rfl
    | succ i =>
      rw [List.flatMap_cons, Nat.mul_succ, Nat.add_comm, ← List.drop_drop, ← hf x, List.drop_left, hf x, ih,
        List.drop_succ_cons]

/-- Block `i` of a batch. -/
def batchBlock (blk : Vector Word 8) (i : Fin 8) : List Emission :=
  blockSeq false (BitVec.ofNat 3 i.val) false none blk[i] (BitVec.ofNat 4 i.val)

theorem batchBlock_length (blk : Vector Word 8) (i : Fin 8) : (batchBlock blk i).length = 45 := blockSeq_length ..

/-- From symbol `45 * i` on a batch is its blocks from `i` on, and the final reset frame. -/
theorem batchExpansion_drop {k : BitVec 4} (blk : Vector Word 8) {i : Nat} (hk : k.toNat ≤ 8) (hi : i ≤ k.toNat) :
    (batchExpansion k blk).drop (45 * i) =
      (((List.finRange 8).take k.toNat).drop i).flatMap (batchBlock blk) ++ resetFrame .finalReset k := by
  have hlength : (((List.finRange 8).take k.toNat).flatMap (batchBlock blk)).length = 45 * k.toNat := by
    have hall := batchExpansion_length (blk := blk) hk
    have hsplit : (batchExpansion k blk).length = _ + 3 := List.length_append
    exact Nat.add_right_cancel (hsplit.symm.trans hall)
  rw [← drop_flatMap_of_length (batchBlock_length blk)]
  exact List.drop_append_of_le_length (hlength ▸ Nat.mul_le_mul_left 45 hi)

/-- Settles O28. -/
theorem batchSequenceOrder : Obligations.BatchSequenceOrder := by
  unfold Obligations.BatchSequenceOrder
  intro k blk hk
  have hlength := batchBlocks_length hk
  refine ⟨fun i hi => ?_, ?_⟩
  · have hdrop : ((List.finRange 8).take k.toNat).drop i.val =
        i :: ((List.finRange 8).take k.toNat).drop (i.val + 1) := by
      rw [List.drop_eq_getElem_cons (hi.trans_eq hlength.symm)]
      simp
    rw [batchExpansion_drop blk hk hi.le, hdrop, List.flatMap_cons, List.append_assoc]
    exact List.take_left' (batchBlock_length blk i)
  · rw [batchExpansion_drop blk hk le_rfl, List.drop_eq_nil_of_le hlength.le]
    rfl

end Sys2Proof.Machine
end

section
/-! What a command reads and writes: the operand registers (10_state.md R34 to R38, R43; 42_sequencer.md R153, V35). -/

namespace Sys2Proof.Machine

open Sys2Proof

variable {s t : State} {i : Instr}

/-! ### The effect of a command behind its gates -/

/-- What a command does in a block that examines it (60_exceptions.md R184). -/
def commandEffect (i : Instr) (s : State) : State :=
  match i with
  | .start =>
    if s.session then s.raiseFault .sessionActive (encode .start)
    else if s.profile.allNonzero then s.openSession
    else s.raiseFault .badProfile (encode .start)
  | .stop => s.closeSession
  | .bit _ | .sgap | .opc _ | .rstf | .wblk _ _ _ _ | .wbatch _ => s.acceptEmission i (operandCheck i) (expansionOf i s)

theorem State.gated_congr {f g : State → State} (h : f s = g s) : s.gated f = s.gated g := by
  rw [State.gated, State.gated, h]

theorem exec_eq_gated (i : Instr) (s : State) : exec i s = .next (s.gated (commandEffect i)) := by
  cases i with
  | start | stop => rfl
  | bit | sgap | opc | rstf | wblk | wbatch =>
    rw [exec_emission (by simp) (by simp), submitEmission]
    exact congrArg _ (State.gated_congr rfl)

/-! ### No command writes an operand register -/

/-- Two states with the same operand registers and the same reads. -/
structure State.SameOperands (s t : State) : Prop where
  data : t.data = s.data
  password : t.password = s.password
  profile : t.profile = s.profile
  blk : t.blk = s.blk
  reads : t.reads = s.reads

theorem exec_sameOperands (h : exec i s = .next t) : s.SameOperands t := by
  by_cases hh : s.halt = true
  · cases (exec_halted i hh).symm.trans h
    exact ⟨rfl, rfl, rfl, rfl, rfl⟩
  have hh : s.halt = false := by simpa using hh
  by_cases hc : s.cur = none
  · rcases exec_accepting i hh hc h with ⟨c, -, rfl⟩ | ⟨-, -, -, rfl⟩ | ⟨-, rfl⟩ | ⟨-, -, -, rfl⟩ <;>
      exact ⟨by simp, by simp, by simp, by simp, by simp⟩
  · cases (exec_busy i hh hc).symm.trans h
    exact ⟨rfl, rfl, rfl, rfl, rfl⟩

/-- Settles O46. -/
theorem commandsLeaveOperandRegisters : Obligations.CommandsLeaveOperandRegisters := by
  unfold Obligations.CommandsLeaveOperandRegisters
  intro i s
  have h := exec_eq_gated i s
  have hops := exec_sameOperands h
  exact ⟨_, h, hops.data, hops.password, hops.profile, hops.blk, exec_pending h, hops.reads,
    fun hh => State.gated_halted _ hh, fun hh hc => State.gated_busy _ hh (State.busy_eq_true_iff.mpr hc)⟩

/-! ### Which commands read an operand register -/

/-- The state with other values in the operand registers. -/
def State.withOperands (s : State) (data password : Word) (profile : Profile) (blk : Vector Word 8) : State :=
  { s with data := data, password := password, profile := profile, blk := blk }

section
variable {d pw : Word} {p : Profile} {b : Vector Word 8}

theorem State.raiseFault_withOperands (c : Cause) (w : Word) :
    (s.withOperands d pw p b).raiseFault c w = (s.raiseFault c w).withOperands d pw p b := by
  cases h : s.session <;>
    simp [State.raiseFault, State.closeSession, State.addEvent, State.forgetAct, State.withOperands, h]

theorem State.closeSession_withOperands :
    (s.withOperands d pw p b).closeSession = s.closeSession.withOperands d pw p b := by
  cases h : s.session <;>
    simp [State.closeSession, State.addEvent, State.forgetAct, State.withOperands, h]

theorem State.acceptEmission_withOperands (bad : Option Cause) (es : List Emission) :
    (s.withOperands d pw p b).acceptEmission i bad es = (s.acceptEmission i bad es).withOperands d pw p b := by
  have hsame : (s.withOperands d pw p b).session = s.session := rfl
  simp only [State.acceptEmission, hsame]
  split
  · cases bad with
    | none => rfl
    | some c => exact State.raiseFault_withOperands c _
  · exact State.raiseFault_withOperands _ _

/-- Operand registers play no part in a command whose symbols do not come from them and, in START, whose profile they
leave alone. -/
theorem commandEffect_withOperands (hes : expansionOf i (s.withOperands d pw p b) = expansionOf i s)
    (hp : i = .start → p = s.profile) :
    commandEffect i (s.withOperands d pw p b) = (commandEffect i s).withOperands d pw p b := by
  cases i with
  | start =>
    cases hp rfl
    have hsame : (s.withOperands d pw s.profile b).session = s.session := rfl
    have hprofile : (s.withOperands d pw s.profile b).profile = s.profile := rfl
    rw [commandEffect, commandEffect, hsame, hprofile]
    split
    · exact State.raiseFault_withOperands _ _
    · split
      · rfl
      · exact State.raiseFault_withOperands _ _
  | stop => exact State.closeSession_withOperands
  | bit | sgap | opc | rstf | wblk | wbatch =>
    rw [commandEffect, commandEffect, hes]
    exact State.acceptEmission_withOperands _ _

theorem State.gated_withOperands {f : State → State}
    (hf : f (s.withOperands d pw p b) = (f s).withOperands d pw p b) :
    (s.withOperands d pw p b).gated f = (s.gated f).withOperands d pw p b := by
  have hhalt : (s.withOperands d pw p b).halt = s.halt := rfl
  have hbusy : (s.withOperands d pw p b).busy = s.busy := rfl
  rw [State.gated, State.gated, hhalt, hbusy, hf]
  split
  · rfl
  · split <;> rfl

/-- A command that does not read the operand registers it is given anew does the same with them, and keeps them. -/
theorem exec_withOperands (hes : expansionOf i (s.withOperands d pw p b) = expansionOf i s)
    (hp : i = .start → p = s.profile) :
    ∃ u : State, exec i s = .next (u.withOperands s.data s.password s.profile s.blk) ∧
      exec i (s.withOperands d pw p b) = .next (u.withOperands d pw p b) := by
  have hown : s.withOperands s.data s.password s.profile s.blk = s := rfl
  refine ⟨s.gated (commandEffect i), ?_, ?_⟩
  · rw [← State.gated_withOperands (commandEffect_withOperands (congrArg _ hown) fun _ => rfl), hown, exec_eq_gated]
  · rw [← State.gated_withOperands (commandEffect_withOperands hes hp), exec_eq_gated]

end

/-! ### The symbols of a command (10_state.md R34, R35, R38) -/

theorem expansionOf_withData (v : Word) (hi : ∀ p n l e, i ≠ .wblk p n l e) :
    expansionOf i (s.withOperands v s.password s.profile s.blk) = expansionOf i s := by
  cases i with
  | wblk p n l e => exact absurd rfl (hi p n l e)
  | start | stop | bit | sgap | opc | rstf | wbatch => rfl

theorem expansionOf_withPassword (v : Word) (hi : ∀ p n l, i ≠ .wblk p n l true) :
    expansionOf i (s.withOperands s.data v s.profile s.blk) = expansionOf i s := by
  cases i with
  | wblk p n l e =>
    cases e with
    | true => exact absurd rfl (hi p n l)
    | false => rfl
  | start | stop | bit | sgap | opc | rstf | wbatch => rfl

theorem expansionOf_withBlk (v : Vector Word 8) (hi : ∀ k, i ≠ .wbatch k) :
    expansionOf i (s.withOperands s.data s.password s.profile v) = expansionOf i s := by
  cases i with
  | wbatch k => exact absurd rfl (hi k)
  | start | stop | bit | sgap | opc | rstf | wblk => rfl

/-- No command's symbols come from the profile registers (10_state.md R43). -/
theorem expansionOf_withProfile (v : Profile) :
    expansionOf i (s.withOperands s.data s.password v s.blk) = expansionOf i s := by
  cases i <;> rfl

/-- A batch has only the blocks below its count (42_sequencer.md R153). -/
theorem batchExpansion_congr {k : BitVec 4} {blk blk' : Vector Word 8}
    (h : ∀ i : Fin 8, i.val < k.toNat → blk[i] = blk'[i]) : batchExpansion k blk = batchExpansion k blk' := by
  refine congrArg (· ++ resetFrame .finalReset k) (List.flatMap_congr fun i hi => ?_)
  obtain ⟨j, hj, rfl⟩ := List.mem_take_iff_getElem.mp hi
  have hlt : ((List.finRange 8)[j]).val < k.toNat := by
    simp only [List.getElem_finRange, Fin.val_cast]
    omega
  rw [h _ hlt]

/-- Settles O47. -/
theorem operandRegistersReadOnlyByTheirCommands : Obligations.OperandRegistersReadOnlyByTheirCommands := by
  unfold Obligations.OperandRegistersReadOnlyByTheirCommands
  refine ⟨fun i s v hi => ?data, fun i s v hi => ?password, fun i s v hi => ?blk⟩
  case data =>
    obtain ⟨u, h, h'⟩ := exec_withOperands (expansionOf_withData v hi) fun _ => rfl
    exact ⟨_, h, h'⟩
  case password =>
    obtain ⟨u, h, h'⟩ := exec_withOperands (expansionOf_withPassword v hi) fun _ => rfl
    exact ⟨_, h, h'⟩
  case blk =>
    obtain ⟨u, h, h'⟩ := exec_withOperands (expansionOf_withBlk v hi) fun _ => rfl
    exact ⟨_, h, h'⟩

/-- Settles O48. -/
theorem profileRegistersReadOnlyByStart : Obligations.ProfileRegistersReadOnlyByStart := by
  unfold Obligations.ProfileRegistersReadOnlyByStart
  intro i s p hi
  obtain ⟨u, h, h'⟩ := exec_withOperands (expansionOf_withProfile p) fun hstart => absurd hstart hi
  exact ⟨_, h, h'⟩

/-- Settles O30. -/
theorem batchReadsOnlyItsBlocks : Obligations.BatchReadsOnlyItsBlocks := by
  unfold Obligations.BatchReadsOnlyItsBlocks
  intro s k blk hblk
  obtain ⟨u, h, h'⟩ := exec_withOperands (i := .wbatch k) (batchExpansion_congr hblk) fun _ => rfl
  exact ⟨_, h, h'⟩

/-! ### What an accepted command emits -/

/-- A command that faults nothing in a session has legal operands. -/
theorem operandCheck_of_running (hs : s.Active) (h : exec i s = .next t) (hrunning : t.halt = false) :
    operandCheck i = none := by
  cases hbad : operandCheck i with
  | none => rfl
  | some c =>
    cases (exec_badOperand hs hbad).symm.trans h
    simp at hrunning

/-- A command that sets the engine going in a session is an emission command with legal operands. -/
theorem exec_begins (hs : s.Active) (h : exec i s = .next t) (hc : t.cur ≠ none) :
    i ≠ .start ∧ i ≠ .stop ∧ operandCheck i = none ∧ t = s.beginEmission i.opcode (expansionOf i s) := by
  rcases exec_accepting i hs.running hs.quiet h with
    ⟨c, -, rfl⟩ | ⟨-, hclosed, -⟩ | ⟨-, rfl⟩ | ⟨hstart, hstop, -, rfl⟩
  · exact absurd ((s.raiseFault_cur c _).trans hs.quiet) hc
  · exact absurd hs.session (by simp [hclosed])
  · exact absurd (s.closeSession_cur.trans hs.quiet) hc
  · exact ⟨hstart, hstop, operandCheck_of_running hs h hs.running, rfl⟩

theorem expansionOf_congr {s' : State} (hd : s.data = s'.data) (hpw : s.password = s'.password)
    (hb : s.blk = s'.blk) : expansionOf i s = expansionOf i s' := by
  cases i <;> simp only [expansionOf, blockExpansion, hd, hpw, hb]

/-- Settles O49. -/
theorem waveformDependsOnlyOnOperands : Obligations.WaveformDependsOnlyOnOperands := by
  unfold Obligations.WaveformDependsOnlyOnOperands
  intro i s s' t t' hs hs' hact hd hpw hb h h' hc
  obtain ⟨hstart, hstop, hlegal, rfl⟩ := exec_begins hs h hc
  have hes : expansionOf i s = expansionOf i s' := expansionOf_congr hd hpw hb
  cases (exec_legal hs' hstart hstop hlegal).symm.trans h'
  refine ⟨?_, ?_, expansionOf i s, rfl, by rw [hes, State.beginEmission_symbols]⟩
  · rw [State.beginEmission_cur, State.beginEmission_cur, hact, hes]
  · rw [State.beginEmission_queue, State.beginEmission_queue, hact, hes]

end Sys2Proof.Machine
end

section
/-! Running the engine: ticks, whole commands, host accesses meanwhile, and `wait_idle` (42_sequencer.md R160 to R162;
30_encoding.md R90). -/

namespace Sys2Proof.Machine

open Sys2Proof

variable {s : State} {c : Current}

/-! ### Ticks (42_sequencer.md R161) -/

/-- The state after `k` ticks that do not yet end the current segment: the latency is counted down first, then CNT. -/
def State.ticked (s : State) (c : Current) (k : Nat) : State :=
  { s with latency := s.latency - k, cur := some ⟨c.seg, c.cnt - (k - s.latency)⟩ }

/-- The engine step plays the current segment whole, whatever is left of it to count. -/
theorem State.ticked_engineStep (h : s.cur = some c) (k : Nat) : (s.ticked c k).engineStep = s.engineStep := by
  have hc : (s.ticked c k).cur = some ⟨c.seg, c.cnt - (k - s.latency)⟩ := rfl
  cases hq : s.queue with
  | nil => rw [State.engineStep_last hc hq, State.engineStep_last h hq]; rfl
  | cons g gs => rw [State.engineStep_more hc hq, State.engineStep_more h hq]; rfl

theorem State.ticked_tick {k : Nat} (hk : k + 1 < s.latency + c.cnt) :
    (s.ticked c k).tick = s.ticked c (k + 1) := by
  have hc : (s.ticked c k).cur = some ⟨c.seg, c.cnt - (k - s.latency)⟩ := rfl
  by_cases hl : k < s.latency
  · have hpos : 0 < (s.ticked c k).latency := Nat.sub_pos_of_lt hl
    have hsame : k - s.latency = k + 1 - s.latency := by omega
    rw [State.tick_latency hc hpos, State.ticked, State.ticked, hsame, Nat.sub_add_eq]
  · have hzero : (s.ticked c k).latency = 0 := Nat.sub_eq_zero_of_le (by omega)
    have hone : 1 < c.cnt - (k - s.latency) := by omega
    have hless : c.cnt - (k - s.latency) - 1 = c.cnt - (k + 1 - s.latency) := by omega
    have hnone : s.latency - k = s.latency - (k + 1) := by omega
    rw [State.tick_count hc hzero hone, State.ticked, State.ticked, hless, hnone]

theorem State.tick_iterate (h : s.cur = some c) {k : Nat} (hk : k < s.latency + c.cnt) :
    State.tick^[k] s = s.ticked c k := by
  induction k with
  | zero =>
    have hcur : some (⟨c.seg, c.cnt - (0 - s.latency)⟩ : Current) = s.cur := by rw [h, Nat.zero_sub]; rfl
    rw [State.ticked, hcur]
    rfl
  | succ k ih => rw [Function.iterate_succ_apply', ih (by omega), State.ticked_tick hk]

/-- Settles O41: before the last tick one of CNT is left, so that tick is the engine step. -/
theorem ticksGiveTheEngineStep : Obligations.TicksGiveTheEngineStep := by
  unfold Obligations.TicksGiveTheEngineStep
  intro s c h hcnt
  refine ⟨?_, fun k hk => ?_, fun rest hp => step_next_move hp⟩
  · obtain ⟨k, hk⟩ : ∃ k, s.latency + c.cnt = k + 1 := ⟨s.latency + c.cnt - 1, by omega⟩
    have hc : (s.ticked c k).cur = some ⟨c.seg, c.cnt - (k - s.latency)⟩ := rfl
    have hzero : (s.ticked c k).latency = 0 := Nat.sub_eq_zero_of_le (by omega)
    have hone : c.cnt - (k - s.latency) ≤ 1 := by omega
    rw [hk, Function.iterate_succ_apply', State.tick_iterate h (by omega), State.tick_edge hc hzero hone,
      State.ticked_engineStep h]
  · rw [State.tick_iterate h hk]
    rfl

/-! ### A command to its end (42_sequencer.md R162) -/

/-- The engine plays the current segment and those queued behind it, and then ends the command. -/
theorem State.engineStep_iterate_end (h : s.cur = some c) :
    State.engineStep^[s.queue.length + 1] s = { s with
      cur := none
      queue := []
      latency := 0
      events := s.events ++ (c.seg :: s.queue).map Segment.event ++ [.ended] } := by
  generalize hq : s.queue = q
  induction q generalizing s c with
  | nil =>
    refine (State.engineStep_last h hq).trans ?_
    simp [Segment.event]
  | cons g gs ih =>
    rw [List.length_cons, Function.iterate_succ_apply, State.engineStep_more h hq, ih rfl rfl]
    simp [Segment.event]

/-- While segments are queued the engine stays busy. -/
theorem State.engineStep_iterate_busy (h : s.cur = some c) {k : Nat} (hk : k ≤ s.queue.length) :
    (State.engineStep^[k] s).busy = true := by
  induction k generalizing s c with
  | zero => exact State.busy_eq_true_iff.mpr (by simp [h])
  | succ k ih =>
    obtain ⟨g, gs, hq⟩ := List.exists_cons_of_length_pos (Nat.zero_lt_of_lt hk)
    rw [hq, List.length_cons] at hk
    rw [Function.iterate_succ_apply, State.engineStep_more h hq]
    exact ih rfl (Nat.le_of_succ_le_succ hk)

/-- Settles O42. -/
theorem commandsRunToCompletion : Obligations.CommandsRunToCompletion := by
  unfold Obligations.CommandsRunToCompletion
  intro s c hs
  have hend := State.engineStep_iterate_end hs.current
  refine ⟨hend, fun k hk => State.engineStep_iterate_busy hs.current hk, ?_⟩
  rintro t rfl
  rw [hend]
  refine ⟨rfl, rfl, rfl, rfl, (State.cwEn_iff _).mpr ⟨hs.session, nofun⟩, ?_⟩
  simp [State.control, State.busy, hs.session, hs.running]

/-- An accepted command, played to its end, leaves its symbols and their segments in the traces, and nothing else. -/
theorem exec_iterate_end {i : Instr} {t : State} (hs : s.Active) (h : exec i s = .next t) (hc : t.cur ≠ none) :
    t.symbols = s.symbols ++ expansionOf i s ∧
      State.engineStep^[t.queue.length + 1] t = { s with
        latency := 0
        queue := []
        symbols := s.symbols ++ expansionOf i s
        events := s.events ++ [.began i.opcode] ++ (expand s.act (expansionOf i s)).map Segment.event ++
          [.ended] } := by
  obtain ⟨-, -, -, rfl⟩ := exec_begins hs h hc
  have hne : expansionOf i s ≠ [] := by
    intro hnil
    simp [hnil] at hc
  obtain ⟨g, gs, hexpand⟩ := exists_expand_eq_cons s.act hne
  refine ⟨rfl, ?_⟩
  rw [State.beginEmission_eq hexpand, State.engineStep_iterate_end rfl, hexpand, ← hs.quiet]

/-- Settles O43. -/
theorem commandsEmitTheirSymbols : Obligations.CommandsEmitTheirSymbols := by
  unfold Obligations.CommandsEmitTheirSymbols
  exact fun i s t hs h hc => ⟨expansionOf i s, exec_iterate_end hs h hc⟩

/-! ### Host accesses while a command runs (42_sequencer.md R160, 20_memory.md R75) -/

/-- What the engine reads and writes of the state, but for the latency. -/
def State.waveform (s : State) : Option Current × List Segment × List Event := (s.cur, s.queue, s.events)

theorem State.engineStep_waveform {t : State} (h : s.waveform = t.waveform) :
    s.engineStep.waveform = t.engineStep.waveform := by
  simp only [State.waveform, Prod.mk.injEq] at h
  obtain ⟨hcur, hqueue, hevents⟩ := h
  rcases s.engineStep_cases with ⟨hc, e⟩ | ⟨c, hc, hq, e⟩ | ⟨c, g, gs, hc, hq, e⟩
  · rw [e, State.engineStep_quiet (hcur.symm.trans hc), State.waveform, State.waveform, hcur, hqueue, hevents]
  · rw [e, State.engineStep_last (hcur.symm.trans hc) (hqueue.symm.trans hq), State.waveform, State.waveform, hevents]
  · rw [e, State.engineStep_more (hcur.symm.trans hc) (hqueue.symm.trans hq), State.waveform, State.waveform, hevents]

theorem State.engineStep_iterate_waveform {t : State} (h : s.waveform = t.waveform) (n : Nat) :
    (State.engineStep^[n] s).waveform = (State.engineStep^[n] t).waveform := by
  induction n with
  | zero => exact h
  | succ n ih =>
    rw [Function.iterate_succ_apply', Function.iterate_succ_apply']
    exact State.engineStep_waveform ih

/-- The engine steps and the admitted accesses of a schedule. -/
abbrev Schedulable (m : Move) : Prop :=
  m = .engine ∨ (∃ off w, Admitted off 4 ∧ m = wr off w) ∨ ∃ off, Admitted off 4 ∧ m = rd off

/-- From `s` to `t` the symbol trace, ACT and the operand registers stay. -/
structure State.SameInputs (s t : State) : Prop where
  symbols : t.symbols = s.symbols
  act : t.act = s.act
  data : t.data = s.data
  password : t.password = s.password
  profile : t.profile = s.profile
  blk : t.blk = s.blk

theorem State.SameInputs.trans {t u : State} (h : s.SameInputs t) (h' : t.SameInputs u) : s.SameInputs u :=
  ⟨h'.symbols.trans h.symbols, h'.act.trans h.act, h'.data.trans h.data, h'.password.trans h.password,
    h'.profile.trans h.profile, h'.blk.trans h.blk⟩

/-- A move of a schedule while a command runs: an engine step of it, or an access that leaves its waveform. -/
theorem step_schedulable {m : Move} {ms : List Move} (hs : s.Writing c) (hp : s.pending = m :: ms)
    (hm : Schedulable m) (hcount : (m :: ms).count .engine ≤ s.queue.length) :
    ∃ u c', step s = .next u ∧ u.Writing c' ∧ u.pending = ms ∧ s.SameInputs u ∧
      ms.count .engine ≤ u.queue.length ∧
      u.waveform = (State.engineStep^[[m].count .engine] s).waveform := by
  have hbusy : s.cur ≠ none := by simp [hs.current]
  rcases hm with rfl | ⟨off, w, ha, rfl⟩ | ⟨off, ha, rfl⟩
  · rw [List.count_cons_self] at hcount
    obtain ⟨g, gs, hq⟩ := List.exists_cons_of_length_pos (Nat.zero_lt_of_lt hcount)
    rw [hq, List.length_cons] at hcount
    have hstep := State.engineStep_more (s := s.setPending ms) hs.current hq
    refine ⟨_, ⟨g, g.d⟩, (step_engine hp).trans (congrArg _ hstep), ⟨hs.running, hs.session, rfl⟩, rfl,
      ⟨rfl, rfl, rfl, rfl, rfl, rfl⟩, Nat.le_of_succ_le_succ hcount, ?_⟩
    exact (congrArg _ hstep.symm).trans (State.engineStep_waveform rfl)
  · exact ⟨_, c, step_write_busy ha hs.running hbusy hp, ⟨hs.running, hs.session, hs.current⟩, rfl,
      ⟨rfl, rfl, rfl, rfl, rfl, rfl⟩, hcount, rfl⟩
  · exact ⟨_, c, step_read ha hp, ⟨hs.running, hs.session, hs.current⟩, rfl,
      ⟨rfl, rfl, rfl, rfl, rfl, rfl⟩, hcount, rfl⟩

/-- Along a schedule the waveform is that of its engine steps alone. -/
theorem run_schedule (ms : List Move) : ∀ {s : State} {c : Current}, s.Writing c → s.pending = ms →
    (∀ m ∈ ms, Schedulable m) → ms.count .engine ≤ s.queue.length →
    ∃ t, Host.Core.run Sys2Proof.core ms.length s = .next t ∧
      t.waveform = (State.engineStep^[ms.count .engine] s).waveform ∧ s.SameInputs t := by
  induction ms with
  | nil => exact fun {s} {c} _ _ _ _ => ⟨s, rfl, rfl, rfl, rfl, rfl, rfl, rfl, rfl⟩
  | cons m ms ih =>
    intro s c hs hp hms hcount
    obtain ⟨hm, hrest⟩ := List.forall_mem_cons.mp hms
    obtain ⟨u, c', hstep, hu, hpu, hsame, hcountu, hwave⟩ := step_schedulable hs hp hm hcount
    obtain ⟨t, hrun, hwavet, hsamet⟩ := ih hu hpu hrest hcountu
    refine ⟨t, (run_next _ hstep).trans hrun, hwavet.trans ?_, hsame.trans hsamet⟩
    have hsplit : ms.count .engine + [m].count .engine = (m :: ms).count .engine := by
      rw [Nat.add_comm, ← List.count_append, List.singleton_append]
    rw [State.engineStep_iterate_waveform hwave, ← Function.iterate_add_apply, hsplit]

/-- Settles O44. -/
theorem interleavingLeavesTheWaveform : Obligations.InterleavingLeavesTheWaveform := by
  unfold Obligations.InterleavingLeavesTheWaveform
  intro s c ms hs hp hms hcount
  obtain ⟨t, hrun, hwave, hsame⟩ := run_schedule ms hs hp hms hcount
  simp only [State.waveform, Prod.mk.injEq] at hwave
  obtain ⟨hcur, hqueue, hevents⟩ := hwave
  exact ⟨t, hrun, hcur, hqueue, hevents, hsame.symbols, hsame.act, hsame.data, hsame.password, hsame.profile, hsame.blk⟩

/-! ### `wait_idle` (30_encoding.md R90) -/

theorem State.status_busy_of_current (h : s.cur = some c) : s.status.getLsbD 1 = true := by
  obtain ⟨-, hbusy, -⟩ := s.status_flags
  exact hbusy.trans (State.busy_eq_true_iff.mpr (by simp [h]))

theorem State.status_busy_of_quiet (h : s.cur = none) : s.status.getLsbD 1 = false := by
  obtain ⟨-, hbusy, -⟩ := s.status_flags
  exact hbusy.trans (State.busy_eq_false_iff.mpr h)

/-- A poll that reads BUSY = 1 is followed by an engine step and another poll. -/
theorem run_waitIdle_busy {rest : List Move} (hp : s.pending = .waitIdle :: rest) (hc : s.cur = some c) (n : Nat) :
    Host.Core.run Sys2Proof.core (n + 2) s = Host.Core.run Sys2Proof.core n (s.addRead s.status).engineStep := by
  have hb := State.status_busy_of_current (s := s.setPending rest) hc
  have hpoll : step s = .next ((s.addRead s.status).setPending (.engine :: .waitIdle :: rest)) :=
    (step_next_move hp).trans (congrArg _ (if_pos hb))
  rw [run_next _ hpoll, run_next _ (step_engine (State.setPending_pending _ _)), ← hp]
  rfl

/-- A poll that reads BUSY = 0 ends the wait. -/
theorem step_waitIdle_quiet {rest : List Move} (hp : s.pending = .waitIdle :: rest) (hc : s.cur = none) :
    step s = .next ((s.addRead s.status).setPending rest) := by
  have hb := State.status_busy_of_quiet (s := s.setPending rest) hc
  exact (step_next_move hp).trans (congrArg _ (if_neg (Bool.eq_false_iff.mp hb)))

/-- A wait from a busy block has a poll that shows BUSY = 1 for every segment, and a last one that shows 0. -/
theorem run_waitIdle {rest : List Move} (hc : s.cur = some c) (hp : s.pending = .waitIdle :: rest) :
    ∃ t polls last, Host.Core.run Sys2Proof.core (2 * (s.queue.length + 1) + 1) s = .next t ∧ t.pending = rest ∧
      t.cur = none ∧ t.halt = s.halt ∧ t.reads = s.reads ++ polls ++ [last] ∧ polls.length = s.queue.length + 1 ∧
      (∀ v ∈ polls, v.getLsbD 1 = true) ∧ last.getLsbD 1 = false := by
  generalize hq : s.queue = q
  induction q generalizing s c with
  | nil =>
    have hshown := State.status_busy_of_current hc
    have hplay := State.engineStep_last (s := s.addRead s.status) hc hq
    have hp' : (s.addRead s.status).engineStep.pending = .waitIdle :: rest := (State.engineStep_pending _).trans hp
    have hquiet : (s.addRead s.status).engineStep.cur = none := by rw [hplay]
    refine ⟨_, [s.status], (s.addRead s.status).engineStep.status,
      (run_waitIdle_busy hp hc 1).trans (run_next 0 (step_waitIdle_quiet hp' hquiet)), rfl, hquiet, ?_, ?_, rfl,
      List.forall_mem_singleton.mpr hshown, State.status_busy_of_quiet hquiet⟩ <;>
    · rw [hplay]
      rfl
  | cons g gs ih =>
    have hshown := State.status_busy_of_current hc
    have hplay := State.engineStep_more (s := s.addRead s.status) hc hq
    have hp' : (s.addRead s.status).engineStep.pending = .waitIdle :: rest := (State.engineStep_pending _).trans hp
    have hc' : (s.addRead s.status).engineStep.cur = some ⟨g, g.d⟩ := by rw [hplay]
    obtain ⟨t, polls, last, hrun, hpend, hquiet, hhalt, hreads, hlength, hpolls, hlast⟩ :=
      ih hc' hp' (by rw [hplay])
    rw [hplay] at hhalt hreads
    refine ⟨t, s.status :: polls, last, (run_waitIdle_busy hp hc _).trans hrun, hpend, hquiet, hhalt, ?_,
      congrArg _ hlength, List.forall_mem_cons.mpr ⟨hshown, hpolls⟩, hlast⟩
    simpa using hreads

/-- Settles O45. -/
theorem waitIdleEnds : Obligations.WaitIdleEnds := by
  unfold Obligations.WaitIdleEnds
  intro s c rest hs hp
  obtain ⟨t, polls, last, hrun, hpend, hquiet, hhalt, hreads, hlength, hpolls, hlast⟩ := run_waitIdle hs.current hp
  refine ⟨t, hrun, hpend, State.busy_eq_false_iff.mpr hquiet, hhalt.trans hs.running, ?_, fun k hk hk' => ?_, ?_⟩
  · simp [hreads, hlength, Nat.add_assoc]
  · obtain ⟨j, rfl⟩ := Nat.exists_eq_add_of_le hk
    have hj : j < polls.length := by omega
    rw [hreads, List.append_assoc, List.getElem?_append_right hk, Nat.add_sub_cancel_left,
      List.getElem?_append_left hj, List.getElem?_eq_getElem hj]
    exact hpolls _ (List.getElem_mem hj)
  · rw [hreads, List.getLast?_concat]
    exact hlast

end Sys2Proof.Machine
end

section
/-! The antenna envelope: what merging keeps, and what each event adds (40_pulse_gap.md R105, 42_sequencer.md R165). -/

namespace Sys2Proof.Machine

open Sys2Proof

/-! ### Merging (40_pulse_gap.md R105) -/

/-- The piece `q` stands for the run `g` of pieces at its level. -/
def StandsFor (g : List Piece) (q : Piece) : Prop :=
  g ≠ [] ∧ (∀ p ∈ g, p.carrier = q.carrier) ∧ q.d = (g.map fun p => p.d).sum ∧
    (q.exact = true ↔ ∀ p ∈ g, p.exact = true)

theorem StandsFor.singleton (p : Piece) : StandsFor [p] p := by
  simp [StandsFor]

/-- A piece at the level of a merged piece joins the run before it. -/
theorem StandsFor.cons {p q : Piece} {g : List Piece} (h : StandsFor g q) (hpq : p.carrier = q.carrier) :
    StandsFor (p :: g) ⟨p.carrier, p.d + q.d, p.exact && q.exact⟩ := by
  obtain ⟨-, hlevel, hsum, hexact⟩ := h
  exact ⟨nofun, List.forall_mem_cons.mpr ⟨rfl, fun r hr => (hlevel r hr).trans hpq.symm⟩,
    by rw [List.map_cons, List.sum_cons, hsum],
    by rw [Bool.and_eq_true, hexact, List.forall_mem_cons]⟩

/-- A merged list is made of runs of the pieces, in order. -/
theorem mergePieces_runs (ps : List Piece) :
    ∃ gs : List (List Piece), gs.flatten = ps ∧ List.Forall₂ StandsFor gs (mergePieces ps) := by
  induction ps with
  | nil => exact ⟨[], rfl, .nil⟩
  | cons p ps ih =>
    obtain ⟨gs, rfl, hruns⟩ := ih
    rw [mergePieces_cons]
    generalize mergePieces gs.flatten = qs at hruns ⊢
    cases hruns with
    | nil => exact ⟨[[p]], rfl, .cons (.singleton p) .nil⟩
    | @cons g q gs qs hg hgs =>
      by_cases hpq : p.carrier = q.carrier
      · rw [mergePiece_same hpq]
        exact ⟨(p :: g) :: gs, rfl, .cons (hg.cons hpq) hgs⟩
      · rw [mergePiece_other hpq]
        exact ⟨[p] :: g :: gs, rfl, .cons (.singleton p) (.cons hg hgs)⟩

/-- Two adjacent merged pieces are at different levels. -/
theorem mergePieces_alternate (ps : List Piece) :
    (mergePieces ps).IsChain (fun p q => p.carrier ≠ q.carrier) := by
  induction ps with
  | nil => exact .nil
  | cons p ps ih =>
    rw [mergePieces_cons]
    cases hqs : mergePieces ps with
    | nil => exact .singleton p
    | cons q qs =>
      rw [hqs] at ih
      by_cases hpq : p.carrier = q.carrier
      · rw [mergePiece_same hpq]
        cases qs with
        | nil => exact .singleton _
        | cons r qs =>
          obtain ⟨hqr, hchain⟩ := List.isChain_cons_cons.mp ih
          exact .cons_cons (hpq ▸ hqr) hchain
      · rw [mergePiece_other hpq]
        exact .cons_cons hpq ih

/-- Runs that merged pieces stand for last as long as the merged pieces. -/
theorem sum_of_standsFor {gs : List (List Piece)} {qs : List Piece} (h : List.Forall₂ StandsFor gs qs) :
    (qs.map fun p => p.d).sum = (gs.flatten.map fun p => p.d).sum := by
  induction h with
  | nil => rfl
  | cons hg hgs ih =>
    obtain ⟨-, -, hsum, -⟩ := hg
    rw [List.map_cons, List.sum_cons, List.flatten_cons, List.map_append, List.sum_append, hsum, ih]

/-- Settles O54: the total duration is that of the runs. -/
theorem mergedEnvelopeAlternates : Obligations.MergedEnvelopeAlternates := by
  unfold Obligations.MergedEnvelopeAlternates
  intro ps
  obtain ⟨gs, hgs, hruns⟩ := mergePieces_runs ps
  exact ⟨(sum_of_standsFor hruns).trans (by rw [hgs]), mergePieces_alternate ps, gs, hgs, hruns⟩

/-! ### The envelope of a trace (42_sequencer.md R165) -/

/-- More events add their pieces to the envelope. -/
theorem envelope_append (es fs : List Event) :
    envelope (es ++ fs) = mergePieces (envelope es ++ fs.flatMap Event.pieces) := by
  rw [envelope, envelope, ← mergePieces_append, List.flatMap_append, List.cons_append]

/-- An event without a piece leaves the envelope. -/
theorem envelope_append_silent (es : List Event) {e : Event} (h : e.pieces = []) :
    envelope (es ++ [e]) = envelope es := by
  rw [envelope, List.flatMap_append, List.flatMap_singleton, h, List.append_nil, envelope]

theorem flatMap_pieces_segments (gs : List Segment) :
    (gs.map Segment.event).flatMap Event.pieces = gs.map fun g => ⟨g.level == .cw, g.d, true⟩ := by
  rw [List.flatMap_map]
  exact List.map_eq_flatMap.symm

/-- Settles O60: a command played to its end appends its segments between Begin and End. -/
theorem envelopeReadsTheTrace : Obligations.EnvelopeReadsTheTrace := by
  unfold Obligations.EnvelopeReadsTheTrace
  refine ⟨rfl, fun es => ⟨envelope_append es _, envelope_append es _, envelope_append es _,
    fun d tag => envelope_append es _, fun d tag => envelope_append es _, fun op => envelope_append_silent es rfl,
    fun c w => envelope_append_silent es rfl, envelope_append_silent es rfl⟩, fun i s t hs h hc => ?_⟩
  obtain ⟨hsymbols, hend⟩ := exec_iterate_end hs h hc
  refine ⟨_, hsymbols, ?_⟩
  rw [hend]
  simp only [List.append_assoc]
  rw [← List.append_assoc s.events, envelope_append, envelope_append_silent _ rfl, List.flatMap_append,
    flatMap_pieces_segments]
  rfl

end Sys2Proof.Machine
end

section
/-! The invariant of the block, kept by every step (10_state.md R24, R31 to R33, R44; 40_pulse_gap.md R105). -/

namespace Sys2Proof.Machine

open Sys2Proof

variable {s t : State}

/-! ### Sound segments -/

/-- The tag is in the ranges of POS (10_state.md R33). -/
structure Tag.InRange (tag : Tag) : Prop where
  blk : tag.blkIdx.toNat ≤ 8
  bit : tag.bitIdx.toNat ≤ 31

/-- Every symbol of an expansion has a tag in range. -/
def TagsInRange (es : List Emission) : Prop := ∀ e ∈ es, e.2.InRange

@[simp] theorem tagsInRange_nil : TagsInRange [] := nofun

@[simp] theorem tagsInRange_cons (e : Emission) (es : List Emission) :
    TagsInRange (e :: es) ↔ e.2.InRange ∧ TagsInRange es := List.forall_mem_cons

@[simp] theorem tagsInRange_append (es fs : List Emission) :
    TagsInRange (es ++ fs) ↔ TagsInRange es ∧ TagsInRange fs := List.forall_mem_append

section
variable {b : BitVec 4}

theorem bitRun_inRange {n : Nat} (ph : Phase) (v : BitVec n) (hb : b.toNat ≤ 8) (hn : n ≤ 32) :
    TagsInRange (bitRun ph b v) := by
  intro e he
  obtain ⟨j, hj, rfl⟩ := List.mem_map.mp he
  have hj := List.mem_range.mp hj
  exact ⟨hb, by rw [BitVec.toNat_ofNat]; omega⟩

theorem opcodeFrame_inRange (page : Bool) (hb : b.toNat ≤ 8) : TagsInRange (opcodeFrame page b) := by
  have htag {j : BitVec 6} (hj : j.toNat ≤ 31) : Tag.InRange ⟨.opcode, b, j⟩ := ⟨hb, hj⟩
  simp only [opcodeFrame, tagsInRange_cons, tagsInRange_nil, and_true]
  exact ⟨htag (by decide), htag (by decide)⟩

theorem resetFrame_inRange (ph : Phase) (hb : b.toNat ≤ 8) : TagsInRange (resetFrame ph b) := by
  have htag {j : BitVec 6} (hj : j.toNat ≤ 31) : Tag.InRange ⟨ph, b, j⟩ := ⟨hb, hj⟩
  simp only [resetFrame, tagsInRange_cons, tagsInRange_nil, and_true]
  exact ⟨htag (by decide), htag (by decide), htag (by decide)⟩

theorem passwordRun_inRange (pwd : Option Word) (hb : b.toNat ≤ 8) : TagsInRange (passwordRun b pwd) := by
  cases pwd with
  | none => exact tagsInRange_nil
  | some w => exact bitRun_inRange .password w hb le_rfl

theorem blockSeq_inRange (page : Bool) (addr : BitVec 3) (lock : Bool) (pwd : Option Word) (data : Word)
    (hb : b.toNat ≤ 8) : TagsInRange (blockSeq page addr lock pwd data b) := by
  have hfirst (ph : Phase) : Tag.InRange ⟨ph, b, 0#6⟩ := ⟨hb, Nat.zero_le _⟩
  rw [blockSeq_eq_append]
  simp only [blockOpening, blockClosing, tagsInRange_append, tagsInRange_cons, tagsInRange_nil, hfirst, true_and,
    and_true]
  exact ⟨opcodeFrame_inRange page hb, passwordRun_inRange pwd hb, bitRun_inRange .data data hb le_rfl,
    bitRun_inRange .addr addr hb (by decide), resetFrame_inRange .reset hb⟩

end

theorem batchExpansion_inRange {k : BitVec 4} (blk : Vector Word 8) (hk : k.toNat ≤ 8) :
    TagsInRange (batchExpansion k blk) := by
  refine (tagsInRange_append _ _).mpr ⟨fun e he => ?_, resetFrame_inRange .finalReset hk⟩
  obtain ⟨i, -, hi⟩ := List.mem_flatMap.mp he
  refine blockSeq_inRange false _ false none _ ?_ e hi
  rw [BitVec.toNat_ofNat]
  omega

/-- The symbols of a command with legal operands have tags in range. -/
theorem expansionOf_inRange {i : Instr} (s : State) (hlegal : operandCheck i = none) :
    TagsInRange (expansionOf i s) := by
  have hzero (ph : Phase) : Tag.InRange ⟨ph, 0#4, 0#6⟩ := ⟨Nat.zero_le _, Nat.zero_le _⟩
  cases i with
  | start | stop => exact tagsInRange_nil
  | bit v => exact (tagsInRange_cons _ _).mpr ⟨hzero _, tagsInRange_nil⟩
  | sgap => exact (tagsInRange_cons _ _).mpr ⟨hzero _, tagsInRange_nil⟩
  | opc p => exact opcodeFrame_inRange _ (Nat.zero_le _)
  | rstf => exact resetFrame_inRange _ (Nat.zero_le _)
  | wblk p n l e => exact blockSeq_inRange _ _ _ _ _ (Nat.zero_le _)
  | wbatch k =>
    refine batchExpansion_inRange s.blk (Nat.not_lt.mp fun hk => ?_)
    cases (checkCount_bad hk).symm.trans hlegal

theorem le_dur {f : Field} (h : f ≠ 0#16) : 8 ≤ dur f := by
  have hpos : f.toNat ≠ 0 := fun h0 => h (BitVec.eq_of_toNat_eq h0)
  rw [dur_eq]
  omega

/-- Under a profile without a zero field, every part of a symbol lasts at least a unit and fits in 20 bits. -/
theorem Symbol.parts_sound {a : Profile} (ha : a.allNonzero = true) (y : Symbol) :
    ∀ part ∈ y.parts a, 8 ≤ part.2 ∧ part.2 ≤ 524280 := by
  have hdur {f : Field} (hf : f ≠ 0#16) : 8 ≤ dur f ∧ dur f ≤ 524280 := ⟨le_dur hf, dur_le f⟩
  obtain ⟨hw, hs, hg, h0, h1, hp⟩ := a.allNonzero_iff.mp ha
  cases y with
  | w => exact List.forall_mem_singleton.mpr (hdur hw)
  | p => exact List.forall_mem_singleton.mpr (hdur hp)
  | s => exact List.forall_mem_singleton.mpr (hdur hs)
  | b0 => exact List.forall_mem_cons.mpr ⟨hdur h0, List.forall_mem_singleton.mpr (hdur hg)⟩
  | b1 => exact List.forall_mem_cons.mpr ⟨hdur h1, List.forall_mem_singleton.mpr (hdur hg)⟩

theorem expand_sound {a : Profile} {es : List Emission} (ha : a.allNonzero = true) (hes : TagsInRange es) :
    ∀ g ∈ expand a es, g.Sound := by
  intro g hg
  obtain ⟨e, he, hg⟩ := List.mem_flatMap.mp hg
  obtain ⟨part, hpart, rfl⟩ := List.mem_map.mp hg
  obtain ⟨hlong, hshort⟩ := Symbol.parts_sound ha e.1 part hpart
  exact ⟨hlong, hshort, (hes e he).blk, (hes e he).bit⟩

/-! ### The operations keep the invariant -/

/-- The invariant speaks of seven fields only. -/
theorem State.Inv.of_eq (hs : s.Inv) (hsession : t.session = s.session) (hhalt : t.halt = s.halt)
    (hcause : t.cause = s.cause) (hcmd : t.faultCmd = s.faultCmd) (hact : t.act = s.act) (hcur : t.cur = s.cur)
    (hqueue : t.queue = s.queue) : t.Inv where
  busyOpen := by rw [hsession, hhalt, hcur]; exact hs.busyOpen
  quietEmpty := by rw [hcur, hqueue]; exact hs.quietEmpty
  count := by rw [hcur]; exact hs.count
  curSound := by rw [hcur]; exact hs.curSound
  queueSound := by rw [hqueue]; exact hs.queueSound
  actNonzero := by rw [hsession, hact]; exact hs.actNonzero
  haltClosed := by rw [hsession, hhalt]; exact hs.haltClosed
  noRecord := by rw [hhalt, hcause, hcmd]; exact hs.noRecord
  record := by rw [hhalt, hcause]; exact hs.record

theorem State.Inv.setPending (hs : s.Inv) (ms : List Move) : (s.setPending ms).Inv :=
  hs.of_eq rfl rfl rfl rfl rfl rfl rfl

theorem State.Inv.addRead (hs : s.Inv) (v : Word) : (s.addRead v).Inv := hs.of_eq rfl rfl rfl rfl rfl rfl rfl

theorem State.Inv.setOvr (hs : s.Inv) : s.setOvr.Inv := hs.of_eq rfl rfl rfl rfl rfl rfl rfl

theorem State.Inv.storeReg (hs : s.Inv) (r : Reg) (w : Word) : (s.storeReg r w).Inv :=
  hs.of_eq (by simp) (by simp) (by simp) (by simp) (by simp) (by simp) (by simp)

/-- In a session that is not halted the engine may be set on any sound segments. -/
theorem State.Inv.load {gs : List Segment} (hs : s.Inv) (hsession : s.session = true) (hhalt : s.halt = false)
    (hgs : ∀ g ∈ gs, g.Sound) : (s.load gs).Inv where
  busyOpen := fun _ => ⟨hsession, hhalt⟩
  quietEmpty := fun h => by cases gs with
    | nil => rfl
    | cons g gs => cases h
  count := fun c h => by cases gs with
    | nil => cases h
    | cons g gs =>
      cases h
      obtain ⟨hg, -⟩ := List.forall_mem_cons.mp hgs
      exact ⟨Nat.le_trans (by decide) hg.long, le_rfl⟩
  curSound := fun c h => by cases gs with
    | nil => cases h
    | cons g gs =>
      cases h
      obtain ⟨hg, -⟩ := List.forall_mem_cons.mp hgs
      exact hg
  queueSound := fun g hg => hgs g (List.mem_of_mem_tail hg)
  actNonzero := hs.actNonzero
  haltClosed := hs.haltClosed
  noRecord := hs.noRecord
  record := hs.record

theorem State.Inv.engineStep (hs : s.Inv) : s.engineStep.Inv := by
  rcases s.engineStep_cases with ⟨-, e⟩ | ⟨c, hc, hq, e⟩ | ⟨c, g, gs, hc, hq, e⟩ <;> rw [e]
  · exact hs
  · obtain ⟨hsession, hhalt⟩ := hs.busyOpen (by simp [hc])
    exact (hs.load (gs := []) hsession hhalt nofun).of_eq rfl rfl rfl rfl rfl rfl rfl
  · obtain ⟨hsession, hhalt⟩ := hs.busyOpen (by simp [hc])
    exact (hs.load hsession hhalt (hq ▸ hs.queueSound)).of_eq rfl rfl rfl rfl rfl rfl rfl

theorem State.Inv.tick (hs : s.Inv) : s.tick.Inv := by
  rcases s.tick_cases with ⟨-, e⟩ | ⟨c, -, -, e⟩ | ⟨c, hc, -, hcnt, e⟩ | ⟨c, -, -, -, e⟩ <;> rw [e]
  · exact hs
  · exact hs.of_eq rfl rfl rfl rfl rfl rfl rfl
  · obtain ⟨-, hd⟩ := hs.count c hc
    exact { hs with
      busyOpen := fun _ => hs.busyOpen (by simp [hc])
      quietEmpty := nofun
      count := fun c' h => by cases h; exact ⟨Nat.le_sub_one_of_lt hcnt, (Nat.sub_le _ _).trans hd⟩
      curSound := fun c' h => by cases h; exact hs.curSound c hc }
  · exact hs.engineStep

theorem State.Inv.beginEmission {op : BitVec 4} {es : List Emission} (hs : s.Inv) (hsession : s.session = true)
    (hhalt : s.halt = false) (hes : TagsInRange es) : (s.beginEmission op es).Inv :=
  (hs.load hsession hhalt (expand_sound (hs.actNonzero hsession) hes)).of_eq rfl rfl rfl rfl rfl rfl rfl

/-- Without a current segment the engine's part of the invariant is that Q is empty. -/
theorem State.Inv.of_quiet (hcur : t.cur = none) (hqueue : t.queue = [])
    (hact : t.session = true → t.act.allNonzero = true) (hclosed : t.halt = true → t.session = false)
    (hnone : t.halt = false → t.cause = .noFault ∧ t.faultCmd = 0#32) (hrecord : t.halt = true → t.cause ≠ .noFault) :
    t.Inv where
  busyOpen := fun h => absurd hcur h
  quietEmpty := fun _ => hqueue
  count := fun c h => by cases hcur.symm.trans h
  curSound := fun c h => by cases hcur.symm.trans h
  queueSound := fun g hg => by rw [hqueue] at hg; cases hg
  actNonzero := hact
  haltClosed := hclosed
  noRecord := hnone
  record := hrecord

theorem State.Inv.openSession (hs : s.Inv) (hacc : s.Accepting) (hp : s.profile.allNonzero = true) :
    s.openSession.Inv := by
  refine .of_quiet hacc.quiet (hs.quietEmpty hacc.quiet) (fun _ => hp) (fun h => ?_) hs.noRecord hs.record
  cases hacc.running.symm.trans h

theorem State.Inv.closeSession (hs : s.Inv) (hacc : s.Accepting) : s.closeSession.Inv := by
  refine .of_quiet ?_ ?_ ?_ ?_ ?_ ?_
  · rw [s.closeSession_cur, hacc.quiet]
  · rw [s.closeSession_queue, hs.quietEmpty hacc.quiet]
  · simp
  · simp
  · simpa using hs.noRecord
  · simpa using hs.record

theorem State.Inv.raiseFault {c : Cause} (hs : s.Inv) (hacc : s.Accepting) (hc : c ≠ .noFault) (w : Word) :
    (s.raiseFault c w).Inv := by
  refine .of_quiet ?_ ?_ ?_ ?_ ?_ ?_
  · rw [s.raiseFault_cur, hacc.quiet]
  · rw [s.raiseFault_queue, hs.quietEmpty hacc.quiet]
  · simp
  · simp
  · simp
  · simpa using hc

theorem State.resetBlock_inv (s : State) : s.resetBlock.Inv :=
  .of_quiet rfl rfl nofun nofun (fun _ => ⟨rfl, rfl⟩) nofun

/-- Settles O55. -/
theorem resetMeetsTheInvariant : Obligations.ResetMeetsTheInvariant := by
  unfold Obligations.ResetMeetsTheInvariant
  exact .of_quiet rfl rfl nofun nofun (fun _ => ⟨rfl, rfl⟩) nofun

/-! ### Commands and steps keep the invariant -/

theorem exec_inv {i : Instr} (hs : s.Inv) (h : exec i s = .next t) : t.Inv := by
  by_cases hh : s.halt = true
  · cases (exec_halted i hh).symm.trans h
    exact hs
  have hh : s.halt = false := by simpa using hh
  by_cases hc : s.cur = none
  · have hacc : s.Accepting := ⟨hh, hc⟩
    rcases exec_accepting i hh hc h with ⟨c, hne, rfl⟩ | ⟨-, -, hp, rfl⟩ | ⟨-, rfl⟩ | ⟨-, -, hsession, rfl⟩
    · exact hs.raiseFault hacc hne _
    · exact hs.openSession hacc hp
    · exact hs.closeSession hacc
    · exact hs.beginEmission hsession hh (expansionOf_inRange s (operandCheck_of_running ⟨hacc, hsession⟩ h hh))
  · cases (exec_busy i hh hc).symm.trans h
    exact hs.setOvr

theorem memWrite_inv {off : Nat} {w : Word} (hs : s.Inv) (ha : off % 4 = 0) (hw : off < 256)
    (h : memWrite (BitVec.ofNat 8 off) w s = .next t) : t.Inv := by
  rcases memWrite_cases ha hw h with
    ⟨-, rfl⟩ | ⟨-, -, rfl⟩ | ⟨-, -, rfl⟩ | ⟨hh, hc, -, rfl⟩ | ⟨-, -, -, i, -, he⟩
  · exact hs
  · exact hs.setOvr
  · exact hs.storeReg _ w
  · exact hs.raiseFault ⟨hh, hc⟩ (by decide) w
  · exact exec_inv hs he

/-- Settles O56, by the kinds of step. -/
theorem stepKeepsTheInvariant : Obligations.StepKeepsTheInvariant := by
  unfold Obligations.StepKeepsTheInvariant
  intro s t hs h
  rcases step_cases h with ⟨-, rfl⟩ | ⟨rest, -, rfl⟩ | ⟨rest, -, rfl⟩ | ⟨rest, -, rfl⟩ |
    ⟨rest, ms, -, -, rfl⟩ | ⟨rest, off, -, -, -, rfl⟩ | ⟨rest, off, w, -, ha, hw, hm⟩
  · exact hs.engineStep
  · exact (hs.setPending rest).engineStep
  · exact (hs.setPending rest).tick
  · exact (s.setPending rest).resetBlock_inv
  · exact (hs.addRead _).setPending _
  · exact (hs.setPending rest).addRead _
  · exact memWrite_inv (hs.setPending rest) ha hw hm

end Sys2Proof.Machine
end

section
/-! The control states, and the steps that open and close a session (42_sequencer.md R150, 10_state.md R23). -/

namespace Sys2Proof.Machine

open Sys2Proof

variable {s t : State}

/-! ### The steps that change SESSION -/

/-- From `s` to `t` SESSION and HALT stay, and the engine is set going only in a session. -/
structure State.KeepsControl (s t : State) : Prop where
  session : t.session = s.session
  halt : t.halt = s.halt
  starts : s.cur = none → t.cur ≠ none → s.session = true

theorem State.KeepsControl.of_setPending {ms : List Move} (h : (s.setPending ms).KeepsControl t) : s.KeepsControl t :=
  ⟨h.session, h.halt, h.starts⟩

/-- A step that leaves SESSION, HALT and CUR keeps the control state. -/
theorem State.KeepsControl.of_eq (hsession : t.session = s.session) (hhalt : t.halt = s.halt) (hcur : t.cur = s.cur) :
    s.KeepsControl t :=
  ⟨hsession, hhalt, fun hc ht => absurd (hcur.trans hc) ht⟩

theorem State.engineStep_keepsControl (s : State) : s.KeepsControl s.engineStep := by
  rcases s.engineStep_cases with ⟨-, e⟩ | ⟨c, hc, -, e⟩ | ⟨c, g, gs, hc, -, e⟩ <;> rw [e]
  · exact .of_eq rfl rfl rfl
  · exact ⟨rfl, rfl, fun hnone => nomatch hc.symm.trans hnone⟩
  · exact ⟨rfl, rfl, fun hnone => nomatch hc.symm.trans hnone⟩

theorem State.tick_keepsControl (s : State) : s.KeepsControl s.tick := by
  rcases s.tick_cases with ⟨-, e⟩ | ⟨c, -, -, e⟩ | ⟨c, hc, -, -, e⟩ | ⟨c, -, -, -, e⟩ <;> rw [e]
  · exact .of_eq rfl rfl rfl
  · exact .of_eq rfl rfl rfl
  · exact ⟨rfl, rfl, fun hnone => nomatch hc.symm.trans hnone⟩
  · exact s.engineStep_keepsControl

/-- A fault is taken, which closes the session. -/
structure State.Faults (s t : State) : Prop extends s.Accepting where
  halted : t.halt = true
  closed : t.session = false

/-- START opens the session. -/
structure State.Opens (s t : State) : Prop extends s.Accepting where
  profile : s.profile.allNonzero = true
  opened : t.session = true
  still : t.cur = none

/-- STOP closes the session. -/
structure State.Closes (s t : State) : Prop extends s.Accepting where
  closed : t.session = false
  still : t.cur = none

theorem State.raiseFault_faults (hs : s.Accepting) (c : Cause) (w : Word) : s.Faults (s.raiseFault c w) :=
  ⟨hs, s.raiseFault_halt c w, s.raiseFault_session c w⟩

theorem exec_cases_session {i : Instr} (h : exec i s = .next t) :
    s.Faults t ∨ (i = .start ∧ s.Opens t) ∨ (i = .stop ∧ s.Closes t) ∨ s.KeepsControl t := by
  by_cases hh : s.halt = true
  · cases (exec_halted i hh).symm.trans h
    exact .inr (.inr (.inr (.of_eq rfl rfl rfl)))
  have hh : s.halt = false := by simpa using hh
  by_cases hc : s.cur = none
  · have hs : s.Accepting := ⟨hh, hc⟩
    rcases exec_accepting i hh hc h with ⟨c, -, rfl⟩ | ⟨hi, -, hp, rfl⟩ | ⟨hi, rfl⟩ | ⟨-, -, hsession, rfl⟩
    · exact .inl (State.raiseFault_faults hs c _)
    · exact .inr (.inl ⟨hi, hs, hp, rfl, hc⟩)
    · exact .inr (.inr (.inl ⟨hi, hs, s.closeSession_session, s.closeSession_cur.trans hc⟩))
    · exact .inr (.inr (.inr ⟨rfl, rfl, fun _ _ => hsession⟩))
  · cases (exec_busy i hh hc).symm.trans h
    exact .inr (.inr (.inr (.of_eq rfl rfl rfl)))

theorem memWrite_cases_session {off : Nat} {w : Word} (ha : off % 4 = 0) (hw : off < 256)
    (h : memWrite (BitVec.ofNat 8 off) w s = .next t) :
    s.Faults t ∨ (off = 0 ∧ w = encode .start ∧ s.Opens t) ∨ (off = 0 ∧ w = encode .stop ∧ s.Closes t) ∨
      s.KeepsControl t := by
  rcases memWrite_cases ha hw h with
    ⟨-, rfl⟩ | ⟨-, -, rfl⟩ | ⟨-, -, rfl⟩ | ⟨hh, hc, -, rfl⟩ | ⟨-, -, h0, i, hi, he⟩
  · exact .inr (.inr (.inr (.of_eq rfl rfl rfl)))
  · exact .inr (.inr (.inr (.of_eq rfl rfl rfl)))
  · exact .inr (.inr (.inr (.of_eq (by simp) (by simp) (by simp))))
  · exact .inl (State.raiseFault_faults ⟨hh, hc⟩ _ w)
  · have hword := encode_of_decode hi
    rcases exec_cases_session he with hf | ⟨rfl, ho⟩ | ⟨rfl, hcl⟩ | hk
    · exact .inl hf
    · exact .inr (.inl ⟨h0, hword.symm, ho⟩)
    · exact .inr (.inr (.inl ⟨h0, hword.symm, hcl⟩))
    · exact .inr (.inr (.inr hk))

/-- What a step from `s` to `t` is to SESSION and HALT. -/
inductive State.SessionStep (s t : State) : Prop where
  | reset {rest : List Move} (hp : s.pending = .reset :: rest)
  | fault (h : s.Faults t)
  | start {rest : List Move} (hp : s.pending = wr 0 (encode .start) :: rest) (h : s.Opens t)
  | stop {rest : List Move} (hp : s.pending = wr 0 (encode .stop) :: rest) (h : s.Closes t)
  | kept (h : s.KeepsControl t)

theorem step_sessionStep (h : step s = .next t) : s.SessionStep t := by
  rcases step_cases h with ⟨-, rfl⟩ | ⟨rest, -, rfl⟩ | ⟨rest, -, rfl⟩ | ⟨rest, hp, -⟩ |
    ⟨rest, ms, -, -, rfl⟩ | ⟨rest, off, -, -, -, rfl⟩ | ⟨rest, off, w, hp, ha, hw, hm⟩
  · exact .kept s.engineStep_keepsControl
  · exact .kept (.of_setPending (State.engineStep_keepsControl _))
  · exact .kept (.of_setPending (State.tick_keepsControl _))
  · exact .reset hp
  · exact .kept (.of_eq rfl rfl rfl)
  · exact .kept (.of_eq rfl rfl rfl)
  · rcases memWrite_cases_session ha hw hm with hf | ⟨rfl, rfl, ho⟩ | ⟨rfl, rfl, hcl⟩ | hk
    · exact .fault ⟨⟨hf.running, hf.quiet⟩, hf.halted, hf.closed⟩
    · exact .start hp ⟨⟨ho.running, ho.quiet⟩, ho.profile, ho.opened, ho.still⟩
    · exact .stop hp ⟨⟨hcl.running, hcl.quiet⟩, hcl.closed, hcl.still⟩
    · exact .kept hk.of_setPending

/-- Settles O50. -/
theorem sessionChangesOnlyAtItsEvents : Obligations.SessionChangesOnlyAtItsEvents := by
  unfold Obligations.SessionChangesOnlyAtItsEvents
  intro s t h
  cases step_sessionStep h with
  | @reset rest hp =>
    cases (step_reset hp).symm.trans h
    exact ⟨fun _ => nofun, fun _ _ => .inr (.inr ⟨rest, hp⟩)⟩
  | fault hf => exact ⟨fun _ ht => (nomatch hf.closed.symm.trans ht), fun _ _ => .inr (.inl ⟨hf.running, hf.halted⟩)⟩
  | @start rest hp ho =>
    exact ⟨fun _ _ => ⟨ho.toAccepting, ho.profile, rest, hp⟩, fun _ ht => (nomatch ho.opened.symm.trans ht)⟩
  | @stop rest hp hcl =>
    exact ⟨fun _ ht => (nomatch hcl.closed.symm.trans ht), fun _ _ => .inl ⟨hcl.toAccepting, rest, hp⟩⟩
  | kept hk =>
    exact ⟨fun hs ht => (nomatch (hk.session.trans hs).symm.trans ht),
      fun hs ht => (nomatch (hk.session.trans hs).symm.trans ht)⟩

/-! ### The control states (42_sequencer.md R150) -/

/-- SESSION, BUSY and HALT in a control state: the table of 42_sequencer.md R150. -/
def Control.flags : Control → Bool × Bool × Bool
  | .idle => (false, false, false)
  | .active => (true, false, false)
  | .writing => (true, true, false)
  | .halted => (false, false, true)

theorem State.control_eq_some_iff (s : State) (k : Control) :
    s.control = some k ↔ (s.session, s.busy, s.halt) = k.flags := by
  unfold State.control
  generalize s.session = session, s.busy = busy, s.halt = halt
  revert session busy halt
  cases k <;> decide

theorem State.control_idle_iff : s.control = some .idle ↔ s.session = false ∧ s.cur = none ∧ s.halt = false := by
  simp [State.control_eq_some_iff, Control.flags]

theorem State.control_active_iff : s.control = some .active ↔ s.session = true ∧ s.cur = none ∧ s.halt = false := by
  simp [State.control_eq_some_iff, Control.flags]

theorem State.control_writing_iff : s.control = some .writing ↔ s.session = true ∧ s.cur ≠ none ∧ s.halt = false := by
  simp [State.control_eq_some_iff, Control.flags]

theorem State.control_halted_iff : s.control = some .halted ↔ s.session = false ∧ s.cur = none ∧ s.halt = true := by
  simp [State.control_eq_some_iff, Control.flags]

/-- Settles O57. -/
theorem controlStateIsOneOfFour : Obligations.ControlStateIsOneOfFour := by
  unfold Obligations.ControlStateIsOneOfFour
  intro s hs
  rw [State.control_idle_iff, State.control_active_iff, State.control_writing_iff, State.control_halted_iff]
  cases hh : s.halt with
  | true => exact .inr (.inr (.inr ⟨hs.haltClosed hh, hs.halted_quiet hh, rfl⟩))
  | false =>
    by_cases hc : s.cur = none
    · cases hsession : s.session with
      | true => exact .inr (.inl ⟨rfl, hc, rfl⟩)
      | false => exact .inl ⟨rfl, hc, rfl⟩
    · obtain ⟨hsession, -⟩ := hs.busyOpen hc
      exact .inr (.inr (.inl ⟨hsession, hc, rfl⟩))

/-- No step goes from IDLE straight to WRITING. -/
theorem step_idle_not_writing (h : step s = .next t) (hr : ∀ rest, s.pending ≠ .reset :: rest)
    (hs : s.control = some .idle) : t.control ≠ some .writing := by
  obtain ⟨hsession, hc, -⟩ := State.control_idle_iff.mp hs
  rw [Ne, State.control_writing_iff]
  rintro ⟨-, htc, hth⟩
  cases step_sessionStep h with
  | reset hp => exact hr _ hp
  | fault hf => cases hf.halted.symm.trans hth
  | start _ ho => exact htc ho.still
  | stop _ hcl => exact htc hcl.still
  | kept hk => cases hsession.symm.trans (hk.starts hc htc)

/-- A step of a block that does not examine commands keeps SESSION and HALT. -/
theorem step_keepsControl (h : step s = .next t) (hr : ∀ rest, s.pending ≠ .reset :: rest) (hs : ¬ s.Accepting) :
    s.KeepsControl t := by
  cases step_sessionStep h with
  | reset hp => exact absurd hp (hr _)
  | fault hf => exact absurd hf.toAccepting hs
  | start _ ho => exact absurd ho.toAccepting hs
  | stop _ hcl => exact absurd hcl.toAccepting hs
  | kept hk => exact hk

/-- Settles O58: the next state meets the invariant, so it is one of the four, and what is left out is excluded. -/
theorem controlStateTransitions : Obligations.ControlStateTransitions := by
  unfold Obligations.ControlStateTransitions
  intro s t hs h hr
  have ht := stepKeepsTheInvariant s t hs h
  have hfour := controlStateIsOneOfFour t ht
  refine ⟨fun hidle => ?idle, fun _ => ?active, fun hwriting => ?writing, fun hhalted => ?halted⟩
  case idle =>
    have hno := step_idle_not_writing h hr hidle
    tauto
  case active => tauto
  case writing =>
    obtain ⟨hsession, hc, hh⟩ := State.control_writing_iff.mp hwriting
    have hk := step_keepsControl h hr fun hacc => hc hacc.quiet
    rw [State.control_writing_iff, State.control_active_iff, hk.session, hk.halt]
    by_cases htc : t.cur = none
    · exact .inr ⟨hsession, htc, hh⟩
    · exact .inl ⟨hsession, htc, hh⟩
  case halted =>
    obtain ⟨hsession, hc, hh⟩ := State.control_halted_iff.mp hhalted
    have hk := step_keepsControl h hr fun hacc => nomatch hacc.running.symm.trans hh
    have hth := hk.halt.trans hh
    exact State.control_halted_iff.mpr ⟨ht.haltClosed hth, ht.halted_quiet hth, hth⟩

end Sys2Proof.Machine
end
